-- ==== Sys2Proof/Word.lean ====
section
/-! DEFINITION. The widths of the values the core handles (spec 00_scope.md R7, R9). -/

namespace Sys2Proof

/-- A byte: a data byte, an in-page offset, a fill byte (R55). -/
abbrev Byte := BitVec 8

/-- A 32-bit field of the command descriptor or of the response (R80, R89). -/
abbrev Word := BitVec 32

/-- A 7-bit bus address (R50, third space). -/
abbrev BusAddr := BitVec 7

/-- A 9-bit linear address as the bookkeeping registers hold it (R26). -/
abbrev Linear := BitVec 9

end Sys2Proof
end

