-- ==== Sys2Proof/Config.lean ====
section
/-! DEFINITION. The named parameters the spec leaves OPEN (00_scope.md R8), and the free values. None has a body that a
proof can see: a claim about them holds for every value they can take. -/

namespace Sys2Proof

/-- The upper six bits of `PAGE_FN` (R8, 92 D8): OPEN. -/
opaque Config.pageFnHi : BitVec 6

/-- The upper four bits of `RW_FN` (R8, 92 D9): OPEN. -/
opaque Config.rwFnHi : BitVec 4

/-- The first byte of `PRESEL_FILL` (R8, 92 D10): OPEN. -/
opaque Config.preselFill0 : Byte

/-- The second byte of `PRESEL_FILL` (R8, 92 D10): OPEN. -/
opaque Config.preselFill1 : Byte

/-- A fresh byte of which nothing is known, one for each index: what RXBUF holds after a failed read (R160, 93 I12).
DESIGN CHOICE, log entry 8; safe: it allows every content. -/
opaque Config.freeByte : Nat → Byte

/-- A byte of which nothing is known, for each bus address, first byte sent and index: what the reference device answers where
D28 gives it no answer. DESIGN CHOICE, log entry 16. -/
opaque Config.freeDeviceByte : BusAddr → Byte → Nat → Byte

/-- `PAGE_FN`, the page-select bus address of quadrants 0 and 1, with the constraint `PAGE_FN[0] = 0` that R8 allows a
model to assume. Log entry 2. -/
def Config.pageFn : BusAddr := Config.pageFnHi ++ 0#1

/-- `RW_FN`, the device bus address with A2 = A1 = A0 = 0, with the constraint `RW_FN[2:0] = 0` that R8 allows a model to
assume. Log entry 3. -/
def Config.rwFn : BusAddr := Config.rwFnHi ++ 0#3

/-- `PRESEL_FILL`, the two don't-care bytes of every page-select pre-write (R8, R97). Log entry 4. -/
def Config.preselFill : List Byte := [Config.preselFill0, Config.preselFill1]

end Sys2Proof
end

