-- ==== Sys2Proof/Syntax.lean ====
section
/-! DEFINITION. The command descriptor (30_encoding.md R80) and the commands as syntax, one constructor for each row of
spec/opcode_table.json. -/

namespace Sys2Proof

/-- The descriptor of a command, latched whole into CMD (R80). -/
structure Descriptor where
  /-- Header word: opcode and small immediates (R81). -/
  h    : Word
  /-- Linear address operand (R82). -/
  addr : Word
  /-- Length or size operand (R83). -/
  len  : Word
  /-- Payload of WRITE_ARRAY, P[0] first (R84). -/
  p    : Vector Byte 16
deriving DecidableEq, Repr

/-- The legal opcodes of the header (R85). -/
inductive Opcode where
  | construct | release | writeByte | readByte | writeArray | readArray
  | prevWriteAddr | prevReadAddr | validateBounds | convert | validateWindow
deriving DecidableEq, Repr

/-- A command with the fields it reads (R85), and nothing of the fields it ignores. -/
inductive Instr where
  /-- CONSTRUCT a2, a1, a0 (R200). -/
  | construct (a2 a1 a0 : Bool)
  /-- RELEASE (R201). -/
  | release
  /-- WRITE_BYTE addr, d (R153). -/
  | writeByte (addr : Word) (d : Byte)
  /-- READ_BYTE addr (R154). -/
  | readByte (addr : Word)
  /-- WRITE_ARRAY addr, n, payload (R156). -/
  | writeArray (addr n : Word) (p : Vector Byte 16)
  /-- READ_ARRAY addr, n (R155). -/
  | readArray (addr n : Word)
  /-- PREV_WRITE_ADDR (R202). -/
  | prevWriteAddr
  /-- PREV_READ_ADDR (R203). -/
  | prevReadAddr
  /-- VALIDATE_BOUNDS addr (R130). -/
  | validateBounds (addr : Word)
  /-- CONVERT addr (R131). -/
  | convert (addr : Word)
  /-- VALIDATE_WINDOW addr, n (R132). -/
  | validateWindow (addr n : Word)
  /-- A descriptor whose header matches no row: the table's ILLEGAL row (R204). It keeps the header. -/
  | illegal (h : Word)
deriving DecidableEq, Repr

end Sys2Proof
end

