-- ==== Sys2Proof/Machine/State.lean ====
section
/-! DEFINITION. The state of the eeprom34c04 core (10_state.md): its nine registers, what is in flight on its two
interfaces, the inputs the outside world has laid ready, and the observation. Plain data. -/

namespace Sys2Proof.Machine

/-- SEQ, the sequencer state (R29). Value 7 of its three bits is "never entered" and has no constructor. -/
inductive Seq where
  /-- 0: no command in flight. -/
  | idle
  /-- 1: decoding and validating the latched command. -/
  | check
  /-- 2: page-select pre-write outstanding. -/
  | presel
  /-- 3: dummy-read exchange outstanding (READ_ARRAY only). -/
  | dummy
  /-- 4: payload-length multiple check (WRITE_ARRAY only). -/
  | mult
  /-- 5: final data exchange outstanding. -/
  | xfer
  /-- 6: response being delivered. -/
  | done
deriving DecidableEq, Repr

/-- A value of the transport's opaque error type (R8, R231, 92 D26). The core can only copy it. Log entry 5. -/
structure TErr where
  code : Nat
deriving DecidableEq, Repr

/-- The error kinds (R90, R230). -/
inductive ErrKind where
  | transportError (e : TErr)
  | addressOutOfRange
  | addressConversionFailure
  | pageWriteWindowOverflow
  | payloadTooLarge
  | invalidPayloadMultiple
  | illegalCommand
deriving DecidableEq, Repr

/-- STATUS of a response (R90); its codes are Status.code in Flags.lean. -/
inductive Status where
  | ok
  | transportError
  | addressOutOfRange
  | addressConversionFailure
  | pageWriteWindowOverflow
  | payloadTooLarge
  | invalidPayloadMultiple
  | illegalCommand
deriving DecidableEq, Repr

/-- The response to the host (R89). TERR is `none` where R89 gives it no meaning (every status but TransportError). Log
entry 17. -/
structure Response where
  status : Status
  rval   : Word
  rlen   : BitVec 8
  rdata  : List Byte
  terr   : Option TErr
deriving DecidableEq, Repr

/-- A bus exchange as the core issues it (R95, R96). -/
inductive Exchange where
  /-- BusWrite(ba, bytes). -/
  | write (ba : BusAddr) (bytes : List Byte)
  /-- BusWriteRead(ba, wbytes, n). -/
  | writeRead (ba : BusAddr) (wbytes : List Byte) (n : Nat)
deriving DecidableEq, Repr

/-- The transport's answer to one exchange, a free draw (R62, 92 D27): success, whose i-th received byte is `rx[i]` for
each i below the exchange's read length (no exchange of this core reads more than 127 bytes, R31), or failure. So an Ok
answer has exactly the requested number of bytes whatever `rx` is. -/
inductive Answer where
  | ok  (rx : Vector Byte 127)
  | err (e : TErr)
deriving DecidableEq, Repr

/-- Whether an exchange in progress at a reset takes effect on the device: the parameter RESET_MID_EXCHANGE (R8, R261). -/
inductive ResetFate where
  | performed
  | notPerformed
deriving DecidableEq, Repr

/-- How an issued exchange ended: answered Ok with the bytes received, answered Err, or cut off by a reset (R261). -/
inductive Ending where
  | ok  (received : List Byte)
  | err (e : TErr)
  | cut (fate : ResetFate)
deriving DecidableEq, Repr

/-- One entry of the exchange trace (R16). -/
structure Record where
  xchg   : Exchange
  ending : Ending
deriving DecidableEq, Repr

/-- A reset the outside world asserts: after how many moves of the sequencer it strikes, and what becomes of an exchange
that is in progress then (R261). Log entry 7. -/
structure ResetStrike where
  after : Nat
  fate  : ResetFate
deriving DecidableEq, Repr

/-- The state. The first nine fields are R20's registers, all of the architectural state. -/
@[ext]
structure State where
  /-- BOUND: a handle exists (R23). -/
  bound   : Bool
  /-- DEVADDR, the device bus address (R24). -/
  devAddr : BusAddr
  /-- LASTW, last-address-written (R26). -/
  lastW   : Linear
  /-- LASTR, last-address-read (R26). -/
  lastR   : Linear
  /-- SEQ (R29). -/
  seq     : Seq
  /-- CMD, the latched descriptor (R28). -/
  cmd     : Descriptor
  /-- TXBUF[0..16] (R30). -/
  txBuf   : Vector Byte 17
  /-- RXBUF[0..126] (R31). -/
  rxBuf   : Vector Byte 127
  /-- DUMMY, the byte of the dummy read (R31). -/
  dummy   : Byte
  /-- Transport interface: the exchange outstanding in PRESEL, DUMMY and XFER (R29, R150). Model's own. -/
  bus     : Option Exchange
  /-- Command interface: the response being delivered in DONE (R29, R89). Model's own. -/
  pending : Option Response
  /-- Input: the descriptors the host will issue, next first (R15, R80). Model's own. Log entries 9, 10. -/
  host    : List Descriptor
  /-- Input: the transport's answers not yet taken, next first; an empty list is a transport that has not answered (R62,
  R152). Model's own. Log entry 9. -/
  answers : List Answer
  /-- Input: an asserted reset (R260, R261). Model's own. -/
  resetIn : Option ResetStrike
  /-- Observation: the exchanges issued and ended, oldest first (R16). Model's own. -/
  trace   : List Record
  /-- Observation: the responses delivered, oldest first (R16, R269). Model's own. -/
  responses : List Response
  /-- How many free bytes have been drawn (log entry 8). Model's own. -/
  freeCtr : Nat
deriving DecidableEq, Repr

/-- Reasons the machine stops. None is reachable from reset (Safety.lean): each is a state in which the spec gives the
sequencer no move (log entry 11). All are safe: the model stops where a machine that got there would have broken the spec. -/
inductive Fault where
  /-- AddressConversionFailure met inside a data command, which 93 I7 treats as a fault and R157 calls impossible. Raised
  by the checks of WRITE_BYTE, READ_BYTE, READ_ARRAY and WRITE_ARRAY. Safe. -/
  | conversionInDataCommand
  /-- SEQ holds a state that is not on the path of the command in flight (R150). Raised by every command. Safe. -/
  | seqOffPath
  /-- SEQ is PRESEL, DUMMY or XFER with no exchange outstanding (R29). Raised by the data commands. Safe. -/
  | noExchange
  /-- SEQ is DONE with no response to deliver (R29). Raised by every command. Safe. -/
  | noResponse
deriving DecidableEq, Repr

/-- Reasons a command is refused a meaning. -/
inductive Refusal where
  /-- The command has no meaning in the model yet. Raised by exec's arms alone (by none now). Safe. -/
  | notModelled (mnemonic : String)
deriving DecidableEq, Repr

/-- The outcome of a move, a command or a step. -/
abbrev Result := Host.Outcome State Fault Refusal

/-- The state right after reset (R35, R260): no handle, SEQ = IDLE. Every register R35 leaves unspecified holds zero, a
DESIGN CHOICE (log entry 1). The outside world has laid nothing ready and nothing has been observed. -/
def State.reset : State where
  bound := false
  devAddr := 0#7
  lastW := 0#9
  lastR := 0#9
  seq := .idle
  cmd := ⟨0#32, 0#32, 0#32, Vector.replicate 16 0#8⟩
  txBuf := Vector.replicate 17 0#8
  rxBuf := Vector.replicate 127 0#8
  dummy := 0#8
  bus := none
  pending := none
  host := []
  answers := []
  resetIn := none
  trace := []
  responses := []
  freeCtr := 0

end Sys2Proof.Machine
end

