-- ==== Sys2Proof/Machine/Flags.lean ====
section
/-! DEFINITION. The core has no flag or condition code (10_state.md R22). What stands in their place is the outcome a
command returns: the status codes (R90) and the two shapes of response (R89, R91). -/

namespace Sys2Proof.Machine

/-- The 4-bit STATUS code (R90). Codes 8 to 15 are never produced. -/
def Status.code : Status → BitVec 4
  | .ok => 0#4
  | .transportError => 1#4
  | .addressOutOfRange => 2#4
  | .addressConversionFailure => 3#4
  | .pageWriteWindowOverflow => 4#4
  | .payloadTooLarge => 5#4
  | .invalidPayloadMultiple => 6#4
  | .illegalCommand => 7#4

/-- SEQ's value in its three bits (R29). -/
def Seq.code : Seq → BitVec 3
  | .idle => 0#3
  | .check => 1#3
  | .presel => 2#3
  | .dummy => 3#3
  | .mult => 4#3
  | .xfer => 5#3
  | .done => 6#3

/-- The status of an error kind (R90). -/
def ErrKind.status : ErrKind → Status
  | .transportError _ => .transportError
  | .addressOutOfRange => .addressOutOfRange
  | .addressConversionFailure => .addressConversionFailure
  | .pageWriteWindowOverflow => .pageWriteWindowOverflow
  | .payloadTooLarge => .payloadTooLarge
  | .invalidPayloadMultiple => .invalidPayloadMultiple
  | .illegalCommand => .illegalCommand

/-- What a response records in TERR: the transport's value verbatim for a TransportError, nothing for another kind
(R230). -/
def ErrKind.terr : ErrKind → Option TErr
  | .transportError e => some e
  | .addressOutOfRange => none
  | .addressConversionFailure => none
  | .pageWriteWindowOverflow => none
  | .payloadTooLarge => none
  | .invalidPayloadMultiple => none
  | .illegalCommand => none

/-- The response of a command that ends with an error: RVAL = 0, RLEN = 0 (R89). -/
def errorResponse (k : ErrKind) : Response :=
  { status := k.status, rval := 0#32, rlen := 0#8, rdata := [], terr := k.terr }

/-- The response `finish(OK, rval, rdata)` (R13, R89). -/
def okResponse (rval : Word) (rdata : List Byte) : Response :=
  { status := .ok, rval := rval, rlen := BitVec.ofNat 8 rdata.length, rdata := rdata, terr := none }

end Sys2Proof.Machine
end

