-- ==== Sys2Proof/Machine/Operands.lean ====
section
/-! DEFINITION. Operand assembly (30_encoding.md section 4), the translator's three functions (40_translator.md section 1)
and the exchanges the core can issue (R97). Pure functions: none reads or writes a register (R120). -/

namespace Sys2Proof.Machine

/-! ### Bus addresses and the offset byte -/

/-- `ps(a) = PAGE_FN | zext_7(a[8])` (R92). -/
def pageSelect (a : Word) : BusAddr := Config.pageFn ||| (a.extractLsb' 8 1).setWidth 7

/-- `off(a) = a[7:0]` (R94). -/
def inPageOffset (a : Word) : Byte := a.extractLsb' 0 8

/-- A configuration bit at position k of a bus address. -/
def cfgBit (b : Bool) (k : Nat) : BusAddr := (BitVec.ofBool b).setWidth 7 <<< k

/-- `DEVADDR = RW_FN | (A2 << 2) | (A1 << 1) | A0` (R93). -/
def deviceAddress (a2 a1 a0 : Bool) : BusAddr :=
  Config.rwFn ||| cfgBit a2 2 ||| cfgBit a1 1 ||| cfgBit a0 0

/-- `a[8:0]`, the value the bookkeeping registers take (R153 to R156). -/
def bookkeepingAddress (a : Word) : Linear := a.extractLsb' 0 9

/-- A bus address as the transport is given it, a byte with bit 7 = 0 (R95, R96, 92 D21). -/
def busAddressByte (ba : BusAddr) : Byte := ba.setWidth 8

/-- The quadrant of a linear address, `a[8:7]` (R52). -/
def quadrant (a : Word) : BitVec 2 := a.extractLsb' 7 2

/-! ### The translator -/

/-- Bounds check (R121). -/
def validateBounds (a : Word) : Except ErrKind Unit :=
  if a.toNat ≥ 512 then .error .addressOutOfRange else .ok ()

/-- Conversion, range by range on the full unmasked address (R122, R123). -/
def convert (a : Word) : Except ErrKind (BusAddr × Byte) :=
  if a.toNat < 128 then .ok (Config.pageFn, a.extractLsb' 0 8)
  else if 128 ≤ a.toNat ∧ a.toNat < 256 then .ok (Config.pageFn, a.extractLsb' 0 8)
  else if 256 ≤ a.toNat ∧ a.toNat < 384 then .ok (Config.pageFn ||| 1#7, a.extractLsb' 0 8)
  else if 384 ≤ a.toNat ∧ a.toNat < 512 then .ok (Config.pageFn ||| 1#7, a.extractLsb' 0 8)
  else .error .addressConversionFailure

/-- Window maximum `wmax(off)`: the offset of the last byte of the quadrant that holds off (R125). -/
def windowMax (off : Byte) : Nat := if off.getLsbD 7 then 0xFF else 0x7F

/-- Window check: conversion first, then the exact sum `off + n` against the maximum (R127, R128). -/
def validateWindow (a n : Word) : Except ErrKind Unit :=
  match convert a with
  | .error e => .error e
  | .ok (_, off) =>
    if off.toNat + n.toNat > windowMax off then .error .pageWriteWindowOverflow else .ok ()

/-- CONVERT's result word: RVAL[14:8] = page select, RVAL[7:0] = offset (R91). -/
def packPhysical (ps : BusAddr) (off : Byte) : Word := ps.setWidth 32 <<< 8 ||| off.setWidth 32

/-- The array-write lengths: n in {2, 4, 8, 16} (R156). -/
def legalMultiple (n : Word) : Bool :=
  n.toNat == 2 || n.toNat == 4 || n.toNat == 8 || n.toNat == 16

/-! ### Exchanges (R97) -/

/-- PRESEL, the page-select pre-write (R151). -/
def preselExchange (ps : BusAddr) : Exchange := .write ps Config.preselFill

/-- WB_DATA and WA_DATA: a write of TXBUF's first bytes to the memory array. -/
def dataWriteExchange (devAddr : BusAddr) (message : List Byte) : Exchange := .write devAddr message

/-- RB_READ, RA_DUMMY and RA_READ: write `[off]`, then read n bytes. -/
def readExchange (devAddr : BusAddr) (off : Byte) (n : Nat) : Exchange := .writeRead devAddr [off] n

/-- How many bytes an exchange reads. -/
def Exchange.readLen : Exchange → Nat
  | .write _ _ => 0
  | .writeRead _ _ n => n

/-- The bus address of an exchange. -/
def Exchange.busAddr : Exchange → BusAddr
  | .write ba _ => ba
  | .writeRead ba _ _ => ba

/-- The bytes an exchange sends. -/
def Exchange.sent : Exchange → List Byte
  | .write _ bytes => bytes
  | .writeRead _ wbytes _ => wbytes

end Sys2Proof.Machine
end

