-- ==== Sys2Proof/Machine/Ops.lean ====
section
/-! DEFINITION. The named operations every command is made of: accepting a command, issuing an exchange and waiting for its
answer, the buffers, ending with OK or with an error (60_exceptions.md R235), delivering the response, reset (R260, R261),
and running a command's moves. The core has no memory (20_memory.md), so there is no memory operation here. -/

namespace Sys2Proof.Machine

/-! ### Sequencing -/

/-- Go on with the next state; a fault or a refusal ends the run. -/
def andThen (r : Result) (f : State → Result) : Result :=
  match r with
  | .next s => f s
  | .fault e => .fault e
  | .refused e => .refused e

/-- At most k moves of the sequencer, stopping at a fault. -/
def runMoves (move : State → Result) : Nat → State → Result
  | 0, s => .next s
  | k + 1, s => andThen (move s) (runMoves move k)

/-- Leave IDLE for CHECK with the latched command (R29); in any other state a command is already in flight. -/
def accept (s : State) : State :=
  if s.seq = .idle then { s with seq := .check } else s

/-- Run a command from where SEQ stands until its response is delivered or it waits for the transport (R150, R152). The
longest path from CHECK to IDLE has five moves; at IDLE and while waiting a move changes nothing. Log entry 13. -/
def runCommand (move : State → Result) (s : State) : Result := runMoves move 5 (accept s)

/-! ### Ending a command -/

/-- `raise`: SEQ goes to DONE with the error's response; nothing else is written (R13, R235). -/
def raise (k : ErrKind) (s : State) : State :=
  { s with seq := .done, pending := some (errorResponse k) }

/-- 127 fresh bytes of which nothing is known, from the k-th on. -/
@[irreducible] def freeBytes (k : Nat) : Vector Byte 127 := Vector.ofFn fun i => Config.freeByte (k + i.val)

/-- What a failed read leaves in RXBUF: contents of which nothing is known (R160, 93 I12; log entry 8). -/
def freeRx (s : State) : State :=
  { s with rxBuf := freeBytes s.freeCtr, freeCtr := s.freeCtr + 127 }

/-- `raise` in READ_BYTE and READ_ARRAY past the binding gate: RXBUF is unspecified from here (R160). -/
def raiseRead (k : ErrKind) (s : State) : State := raise k (freeRx s)

/-- `finish(OK, rval, rdata)`: SEQ goes to DONE with the OK response (R13). -/
def finishOk (rval : Word) (rdata : List Byte) (s : State) : State :=
  { s with seq := .done, pending := some (okResponse rval rdata) }

/-- Deliver the response and return to IDLE (R29, R235). -/
def deliver (r : Response) (s : State) : State :=
  { s with seq := .idle, pending := none, responses := s.responses ++ [r] }

/-- The move of state DONE: the registers a command writes at its end are written if its status is OK and not otherwise
(R11, R158), then the response is delivered. -/
def doneMove (commit : State → State) (s : State) : Result :=
  match s.pending with
  | none => .fault .noResponse
  | some r => .next (deliver r (if r.status = .ok then commit s else s))

/-! ### Checks -/

/-- The binding gate of a command that needs a handle (R205): refused with IllegalCommand while BOUND = 0. -/
def needHandle (s : State) (go : Result) : Result :=
  if s.bound then go else .next (raise .illegalCommand s)

/-- One translator check of a data command: its error is raised, except that AddressConversionFailure, which no data
command can meet, is a fault (R157, 93 I7). -/
def dataCheck {α : Type} (fail : ErrKind → State → State) (c : Except ErrKind α) (s : State)
    (go : α → Result) : Result :=
  match c with
  | .ok v => go v
  | .error .addressConversionFailure => .fault .conversionInDataCommand
  | .error k => .next (fail k s)

/-! ### The transport -/

/-- Issue an exchange and wait for it in state q (R150). -/
def issue (q : Seq) (x : Exchange) (s : State) : State := { s with seq := q, bus := some x }

/-- The outstanding exchange has ended: it goes to the trace, and the answer taken leaves the transport's list. -/
def settle (x : Exchange) (e : Ending) (rest : List Answer) (s : State) : State :=
  { s with bus := none, answers := rest, trace := s.trace ++ [⟨x, e⟩] }

/-- The bytes an exchange of read length n receives with the answer rx: exactly n of them (R96). -/
def received (rx : Vector Byte 127) (n : Nat) : List Byte := rx.toList.take n

/-- The move of a state that waits for an exchange: nothing happens until the transport answers (R152); Err ends the
command with TransportError(e), e unchanged (R159); Ok goes on with the bytes received. -/
def await (fail : ErrKind → State → State) (s : State)
    (go : Vector Byte 127 → State → Result) : Result :=
  match s.bus with
  | none => .fault .noExchange
  | some x =>
    match s.answers with
    | [] => .next s
    | .err e :: rest => .next (fail (.transportError e) (settle x (.err e) rest s))
    | .ok rx :: rest => go rx (settle x (.ok (received rx x.readLen)) rest s)

/-! ### The buffers (log entry 19) -/

/-- A buffer with its first bytes overwritten; the bytes beyond keep their contents. -/
def overlay {m : Nat} (l : List Byte) (old : Vector Byte m) : Vector Byte m :=
  Vector.ofFn fun i => (l[i.val]?).getD old[i.val]

/-- `TXBUF[0] <- off`, `TXBUF[1 + i] <- data[i]`; the bytes beyond keep their contents (R30, R153, R156). -/
def loadTx (off : Byte) (data : List Byte) (s : State) : State :=
  { s with txBuf := overlay (off :: data) s.txBuf }

/-- The first k bytes of TXBUF, the message sent (R30). -/
def txMessage (k : Nat) (s : State) : List Byte := s.txBuf.toList.take k

/-- `RXBUF[0..len-1] <- r`; the bytes beyond keep their contents (R31, R56). -/
def loadRx (r : List Byte) (s : State) : State :=
  { s with rxBuf := overlay r s.rxBuf }

/-- `DUMMY <- x[0]` (R155). -/
def loadDummy (b : Byte) (s : State) : State := { s with dummy := b }

/-! ### The handle registers -/

/-- `LASTW <- a[8:0]` (R153, R156). -/
def recordWrite (a : Word) (s : State) : State := { s with lastW := bookkeepingAddress a }

/-- `LASTR <- a[8:0]` (R154, R155). -/
def recordRead (a : Word) (s : State) : State := { s with lastR := bookkeepingAddress a }

/-- What CONSTRUCT writes: DEVADDR, LASTW = LASTR = 0, BOUND = 1 (R200). -/
def bindHandle (devAddr : BusAddr) (s : State) : State :=
  { s with devAddr := devAddr, lastW := 0#9, lastR := 0#9, bound := true }

/-- What RELEASE writes: BOUND = 0, the other handle registers kept (R201). Log entry 15. -/
def releaseHandle (s : State) : State := { s with bound := false }

/-- The end of a command that writes no register. -/
def commitNothing (s : State) : State := s

/-! ### Reset -/

/-- What the trace records of the exchange a reset finds in progress (R261). -/
def cutRecords (fate : ResetFate) (bus : Option Exchange) : List Record :=
  match bus with
  | none => []
  | some x => [⟨x, .cut fate⟩]

/-- Reset (R260, R261): no handle, SEQ = IDLE, a command in flight ended with no response and no bookkeeping write, an
exchange in progress recorded with its fate. Every other register is unspecified after reset (R35, R260) and keeps its bits
here, so LASTW and LASTR are not written (DESIGN CHOICE, log entry 6). -/
def hardReset (fate : ResetFate) (s : State) : State :=
  { s with
    bound := false
    seq := .idle
    bus := none
    pending := none
    resetIn := none
    trace := s.trace ++ cutRecords fate s.bus }

end Sys2Proof.Machine
end

