-- ==== Sys2Proof/Machine/DataCommands.lean ====
section
/-! DEFINITION. The data commands (41_sequencer.md R153 to R156), each as the moves of its path (R150): what the sequencer
does in CHECK, in each state that waits for an exchange, in MULT and in DONE. -/

namespace Sys2Proof.Machine

/-! ### WRITE_BYTE (R153) -/

/-- CHECK of WRITE_BYTE: gate, bounds, conversion, then the pre-write is issued. -/
def checkWriteByte (a : Word) (s : State) : Result :=
  needHandle s
    (dataCheck raise (validateBounds a) s fun _ =>
      dataCheck raise (convert a) s fun pa =>
        .next (issue .presel (preselExchange pa.1) s))

/-- TXBUF is loaded and the data write issued. -/
def sendWriteByte (a : Word) (d : Byte) (s : State) : State :=
  let s1 := loadTx (inPageOffset a) [d] s
  issue .xfer (dataWriteExchange s1.devAddr (txMessage 2 s1)) s1

/-- The moves of WRITE_BYTE. -/
def moveWriteByte (a : Word) (d : Byte) (s : State) : Result :=
  match s.seq with
  | .idle => .next s
  | .check => checkWriteByte a s
  | .presel => await raise s fun _ s1 => .next (sendWriteByte a d s1)
  | .xfer => await raise s fun _ s1 => .next (finishOk 0#32 [] s1)
  | .done => doneMove (recordWrite a) s
  | .dummy => .fault .seqOffPath
  | .mult => .fault .seqOffPath

/-! ### READ_BYTE (R154) -/

/-- CHECK of READ_BYTE: gate, bounds, conversion, then the pre-write is issued. -/
def checkReadByte (a : Word) (s : State) : Result :=
  needHandle s
    (dataCheck raiseRead (validateBounds a) s fun _ =>
      dataCheck raiseRead (convert a) s fun pa =>
        .next (issue .presel (preselExchange pa.1) s))

/-- The moves of READ_BYTE. -/
def moveReadByte (a : Word) (s : State) : Result :=
  match s.seq with
  | .idle => .next s
  | .check => checkReadByte a s
  | .presel => await raiseRead s fun _ s1 =>
      .next (issue .xfer (readExchange s1.devAddr (inPageOffset a) 1) s1)
  | .xfer => await raiseRead s fun rx s1 =>
      .next (finishOk (rx[0].setWidth 32) [rx[0]] (loadRx [rx[0]] s1))
  | .done => doneMove (recordRead a) s
  | .dummy => .fault .seqOffPath
  | .mult => .fault .seqOffPath

/-! ### READ_ARRAY (R155) -/

/-- CHECK of READ_ARRAY: gate, bounds, window, conversion, then the pre-write is issued. -/
def checkReadArray (a n : Word) (s : State) : Result :=
  needHandle s
    (dataCheck raiseRead (validateBounds a) s fun _ =>
      dataCheck raiseRead (validateWindow a n) s fun _ =>
        dataCheck raiseRead (convert a) s fun pa =>
          .next (issue .presel (preselExchange pa.1) s))

/-- The moves of READ_ARRAY. The dummy read always reads one byte, whatever n is; one that fails leaves
DUMMY (log entry 14). -/
def moveReadArray (a n : Word) (s : State) : Result :=
  match s.seq with
  | .idle => .next s
  | .check => checkReadArray a n s
  | .presel => await raiseRead s fun _ s1 =>
      .next (issue .dummy (readExchange s1.devAddr (inPageOffset a) 1) s1)
  | .dummy => await raiseRead s fun rx s1 =>
      .next (issue .xfer (readExchange s1.devAddr (inPageOffset a) n.toNat) (loadDummy rx[0] s1))
  | .xfer => await raiseRead s fun rx s1 =>
      .next (finishOk 0#32 (received rx n.toNat) (loadRx (received rx n.toNat) s1))
  | .done => doneMove (recordRead a) s
  | .mult => .fault .seqOffPath

/-! ### WRITE_ARRAY (R156) -/

/-- CHECK of WRITE_ARRAY: gate, payload size, bounds, window, conversion, then the pre-write is issued. -/
def checkWriteArray (a n : Word) (s : State) : Result :=
  needHandle s
    (if n.toNat > 16 then .next (raise .payloadTooLarge s)
     else
      dataCheck raise (validateBounds a) s fun _ =>
        dataCheck raise (validateWindow a n) s fun _ =>
          dataCheck raise (convert a) s fun pa =>
            .next (issue .presel (preselExchange pa.1) s))

/-- The pre-write is answered: the sequencer goes to MULT. -/
def toMult (s : State) : State := { s with seq := .mult }

/-- TXBUF is loaded with the offset and the payload's first n bytes, and the data write issued. -/
def sendWriteArray (a n : Word) (p : Vector Byte 16) (s : State) : State :=
  let s1 := loadTx (inPageOffset a) (p.toList.take n.toNat) s
  issue .xfer (dataWriteExchange s1.devAddr (txMessage (n.toNat + 1) s1)) s1

/-- MULT of WRITE_ARRAY: the length must be 2, 4, 8 or 16. -/
def multWriteArray (a n : Word) (p : Vector Byte 16) (s : State) : State :=
  if legalMultiple n then sendWriteArray a n p s else raise .invalidPayloadMultiple s

/-- The moves of WRITE_ARRAY. -/
def moveWriteArray (a n : Word) (p : Vector Byte 16) (s : State) : Result :=
  match s.seq with
  | .idle => .next s
  | .check => checkWriteArray a n s
  | .presel => await raise s fun _ s1 => .next (toMult s1)
  | .mult => .next (multWriteArray a n p s)
  | .xfer => await raise s fun _ s1 => .next (finishOk 0#32 [] s1)
  | .done => doneMove (recordWrite a) s
  | .dummy => .fault .seqOffPath

/-! ### Meanings -/

/-- WRITE_BYTE (R153). -/
def execWriteByte (a : Word) (d : Byte) (s : State) : Result := runCommand (moveWriteByte a d) s

/-- READ_BYTE (R154). -/
def execReadByte (a : Word) (s : State) : Result := runCommand (moveReadByte a) s

/-- READ_ARRAY (R155). -/
def execReadArray (a n : Word) (s : State) : Result := runCommand (moveReadArray a n) s

/-- WRITE_ARRAY (R156). -/
def execWriteArray (a n : Word) (p : Vector Byte 16) (s : State) : Result :=
  runCommand (moveWriteArray a n p) s

end Sys2Proof.Machine
end

