-- ==== Sys2Proof/Machine/Translator.lean ====
section
/-! DEFINITION. The translator commands (40_translator.md section 2) and the illegal command (42_handle.md R204): they need no
handle, issue no exchange and write no register but SEQ. Also shortMove, the path IDLE, CHECK, DONE, IDLE (R150). -/

namespace Sys2Proof.Machine

/-- The moves of a command whose path is IDLE, CHECK, DONE, IDLE (R150). -/
def shortMove (check commit : State → State) (s : State) : Result :=
  match s.seq with
  | .idle => .next s
  | .check => .next (check s)
  | .done => doneMove commit s
  | .presel => .fault .seqOffPath
  | .dummy => .fault .seqOffPath
  | .mult => .fault .seqOffPath
  | .xfer => .fault .seqOffPath

/-- CHECK of VALIDATE_BOUNDS (R130). -/
def checkValidateBounds (a : Word) (s : State) : State :=
  match validateBounds a with
  | .error k => raise k s
  | .ok _ => finishOk 0#32 [] s

/-- CHECK of CONVERT (R131). -/
def checkConvert (a : Word) (s : State) : State :=
  match convert a with
  | .error k => raise k s
  | .ok (ps, off) => finishOk (packPhysical ps off) [] s

/-- CHECK of VALIDATE_WINDOW (R132). -/
def checkValidateWindow (a n : Word) (s : State) : State :=
  match validateWindow a n with
  | .error k => raise k s
  | .ok _ => finishOk 0#32 [] s

/-- The moves of VALIDATE_BOUNDS. -/
def moveValidateBounds (a : Word) : State → Result := shortMove (checkValidateBounds a) commitNothing

/-- The moves of CONVERT. -/
def moveConvert (a : Word) : State → Result := shortMove (checkConvert a) commitNothing

/-- The moves of VALIDATE_WINDOW. -/
def moveValidateWindow (a n : Word) : State → Result := shortMove (checkValidateWindow a n) commitNothing

/-- The moves of an illegal command: IllegalCommand in either BOUND state (R204). -/
def moveIllegal (_h : Word) : State → Result := shortMove (raise .illegalCommand) commitNothing

/-- VALIDATE_BOUNDS (R130). -/
def execValidateBounds (a : Word) (s : State) : Result := runCommand (moveValidateBounds a) s

/-- CONVERT (R131). -/
def execConvert (a : Word) (s : State) : Result := runCommand (moveConvert a) s

/-- VALIDATE_WINDOW (R132). -/
def execValidateWindow (a n : Word) (s : State) : Result := runCommand (moveValidateWindow a n) s

/-- An illegal command (R204). -/
def execIllegal (h : Word) (s : State) : Result := runCommand (moveIllegal h) s

end Sys2Proof.Machine
end

