-- ==== Sys2Proof/Machine/Handle.lean ====
section
/-! DEFINITION. The handle commands (42_handle.md R200 to R203): CONSTRUCT, RELEASE, PREV_WRITE_ADDR, PREV_READ_ADDR. None
issues a bus exchange. -/

namespace Sys2Proof.Machine

/-- CHECK of CONSTRUCT: refused if a handle exists (R200, R205). -/
def checkConstruct (s : State) : State :=
  if s.bound then raise .illegalCommand s else finishOk 0#32 [] s

/-- CHECK of RELEASE: refused if there is no handle (R201, R205). -/
def checkRelease (s : State) : State :=
  if s.bound then finishOk 0#32 [] s else raise .illegalCommand s

/-- CHECK of PREV_WRITE_ADDR (R202). -/
def checkPrevWriteAddr (s : State) : State :=
  if s.bound then finishOk (s.lastW.setWidth 32) [] s else raise .illegalCommand s

/-- CHECK of PREV_READ_ADDR (R203). -/
def checkPrevReadAddr (s : State) : State :=
  if s.bound then finishOk (s.lastR.setWidth 32) [] s else raise .illegalCommand s

/-- The moves of CONSTRUCT. -/
def moveConstruct (a2 a1 a0 : Bool) : State → Result :=
  shortMove checkConstruct (bindHandle (deviceAddress a2 a1 a0))

/-- The moves of RELEASE. -/
def moveRelease : State → Result := shortMove checkRelease releaseHandle

/-- The moves of PREV_WRITE_ADDR. -/
def movePrevWriteAddr : State → Result := shortMove checkPrevWriteAddr commitNothing

/-- The moves of PREV_READ_ADDR. -/
def movePrevReadAddr : State → Result := shortMove checkPrevReadAddr commitNothing

/-- CONSTRUCT (R200). -/
def execConstruct (a2 a1 a0 : Bool) (s : State) : Result := runCommand (moveConstruct a2 a1 a0) s

/-- RELEASE (R201). -/
def execRelease (s : State) : Result := runCommand moveRelease s

/-- PREV_WRITE_ADDR (R202). -/
def execPrevWriteAddr (s : State) : Result := runCommand movePrevWriteAddr s

/-- PREV_READ_ADDR (R203). -/
def execPrevReadAddr (s : State) : Result := runCommand movePrevReadAddr s

end Sys2Proof.Machine
end

