-- ==== Sys2Proof/Machine/Moves.lean ====
section
/-! DEFINITION. One move of the sequencer, for any command: what a run of a command is made of, and what a reset cuts
(R150, R261). -/

namespace Sys2Proof.Machine

/-- One move of SEQ for a command. -/
def moveOf (i : Instr) (s : State) : Result :=
  match i with
  | .construct a2 a1 a0 => moveConstruct a2 a1 a0 s
  | .release => moveRelease s
  | .writeByte a d => moveWriteByte a d s
  | .readByte a => moveReadByte a s
  | .writeArray a n p => moveWriteArray a n p s
  | .readArray a n => moveReadArray a n s
  | .prevWriteAddr => movePrevWriteAddr s
  | .prevReadAddr => movePrevReadAddr s
  | .validateBounds a => moveValidateBounds a s
  | .convert a => moveConvert a s
  | .validateWindow a n => moveValidateWindow a n s
  | .illegal h => moveIllegal h s

/-- The states a command's path visits (R150's table). -/
def pathOf (i : Instr) : List Seq :=
  match i with
  | .construct _ _ _ => [.idle, .check, .done]
  | .release => [.idle, .check, .done]
  | .writeByte _ _ => [.idle, .check, .presel, .xfer, .done]
  | .readByte _ => [.idle, .check, .presel, .xfer, .done]
  | .writeArray _ _ _ => [.idle, .check, .presel, .mult, .xfer, .done]
  | .readArray _ _ => [.idle, .check, .presel, .dummy, .xfer, .done]
  | .prevWriteAddr => [.idle, .check, .done]
  | .prevReadAddr => [.idle, .check, .done]
  | .validateBounds _ => [.idle, .check, .done]
  | .convert _ => [.idle, .check, .done]
  | .validateWindow _ _ => [.idle, .check, .done]
  | .illegal _ => [.idle, .check, .done]

end Sys2Proof.Machine
end

