-- ==== Sys2Proof/Machine/Dispatch.lean ====
section
/-! DEFINITION. exec: one arm for each command, each a direct call of its meaning. -/

namespace Sys2Proof.Machine

-- Running a command from where SEQ stands: from IDLE it is accepted and run; from a waiting state it goes on.
def exec (i : Instr) (s : State) : Host.Outcome State Fault Refusal :=
  match i with
  | .construct a2 a1 a0 => Sys2Proof.Machine.execConstruct a2 a1 a0 s
  | .release => Sys2Proof.Machine.execRelease s
  | .writeByte a d => Sys2Proof.Machine.execWriteByte a d s
  | .readByte a => Sys2Proof.Machine.execReadByte a s
  | .writeArray a n p => Sys2Proof.Machine.execWriteArray a n p s
  | .readArray a n => Sys2Proof.Machine.execReadArray a n s
  | .prevWriteAddr => Sys2Proof.Machine.execPrevWriteAddr s
  | .prevReadAddr => Sys2Proof.Machine.execPrevReadAddr s
  | .validateBounds a => Sys2Proof.Machine.execValidateBounds a s
  | .convert a => Sys2Proof.Machine.execConvert a s
  | .validateWindow a n => Sys2Proof.Machine.execValidateWindow a n s
  | .illegal h => Sys2Proof.Machine.execIllegal h s

end Sys2Proof.Machine
end

