-- ==== Sys2Proof/WellFormed.lean ====
section
/-! DEFINITION. Which terms of Instr a descriptor can spell. Every operand value of the eleven legal commands is a legal
encoding (R82, R83, R200's corner cases); an `illegal h` is well formed only when h really is illegal (R86, R87). -/

namespace Sys2Proof

/-- A header is legal: R87's list of the bits that must be clear, and R86's reserved opcodes. Written from the words of
R86 and R87, apart from the decoder (R88) and the table, with which it is proved to agree. -/
def headerLegal (h : Word) : Bool :=
  let op := (h.extractLsb' 0 4).toNat
  h.extractLsb' 16 16 == 0#16
    && h.extractLsb' 7 1 == 0#1
    && (op == 0x3 || h.extractLsb' 8 8 == 0#8)
    && (op == 0x1 || h.extractLsb' 4 3 == 0#3)
    && (decide (0x1 ≤ op) && decide (op ≤ 0xB))

/-- Well-formedness of a command. -/
def Instr.wf : Instr → Bool
  | .construct _ _ _ => true
  | .release => true
  | .writeByte _ _ => true
  | .readByte _ => true
  | .writeArray _ _ _ => true
  | .readArray _ _ => true
  | .prevWriteAddr => true
  | .prevReadAddr => true
  | .validateBounds _ => true
  | .convert _ => true
  | .validateWindow _ _ => true
  | .illegal h => !headerLegal h

end Sys2Proof
end

