-- ==== Sys2Proof/Decode.lean ====
section
/-! DEFINITION. The decoder (30_encoding.md R81, R85 to R88), total on every descriptor and rejecting by name, then the
encoder (R81, R98) and the machine-readable opcode rows (R87). -/

namespace Sys2Proof

/-- Why a header is illegal, in the order R88 tests. -/
inductive Reject where
  /-- H[31:16] or H[7] is not 0. -/
  | reservedBits
  /-- H[15:8] is not 0 and the opcode is not WRITE_BYTE. -/
  | dataUnused
  /-- H[6:4] is not 0 and the opcode is not CONSTRUCT. -/
  | cfgUnused
  /-- Opcode 0x0 or 0xC to 0xF. -/
  | reservedOpcode
deriving DecidableEq, Repr

/-! ### Fields of the header (R81) -/

/-- OP = H[3:0]. -/
def Header.op (h : Word) : BitVec 4 := h.extractLsb' 0 4
/-- CFG = H[6:4]. -/
def Header.cfg (h : Word) : BitVec 3 := h.extractLsb' 4 3
/-- H[7], reserved. -/
def Header.reserved7 (h : Word) : BitVec 1 := h.extractLsb' 7 1
/-- DATA = H[15:8]. -/
def Header.data (h : Word) : Byte := h.extractLsb' 8 8
/-- H[31:16], reserved. -/
def Header.reservedHigh (h : Word) : BitVec 16 := h.extractLsb' 16 16

/-- R85's opcode map. -/
def opcodeOf (op : BitVec 4) : Option Opcode :=
  match op.toNat with
  | 0x1 => some .construct
  | 0x2 => some .release
  | 0x3 => some .writeByte
  | 0x4 => some .readByte
  | 0x5 => some .writeArray
  | 0x6 => some .readArray
  | 0x7 => some .prevWriteAddr
  | 0x8 => some .prevReadAddr
  | 0x9 => some .validateBounds
  | 0xA => some .convert
  | 0xB => some .validateWindow
  | _ => none

/-- R88's pseudocode, test by test. -/
def decodeHeader (h : Word) : Except Reject Opcode :=
  if Header.reservedHigh h ≠ 0#16 ∨ Header.reserved7 h ≠ 0#1 then .error .reservedBits
  else if Header.op h ≠ 0x3#4 ∧ Header.data h ≠ 0#8 then .error .dataUnused
  else if Header.op h ≠ 0x1#4 ∧ Header.cfg h ≠ 0#3 then .error .cfgUnused
  else match opcodeOf (Header.op h) with
    | none => .error .reservedOpcode
    | some o => .ok o

/-- The command a descriptor stands for (R85, R88); an illegal header gives the ILLEGAL row (R204). -/
def decode (d : Descriptor) : Instr :=
  match decodeHeader d.h with
  | .error _ => .illegal d.h
  | .ok .construct => .construct (d.h.getLsbD 6) (d.h.getLsbD 5) (d.h.getLsbD 4)
  | .ok .release => .release
  | .ok .writeByte => .writeByte d.addr (Header.data d.h)
  | .ok .readByte => .readByte d.addr
  | .ok .writeArray => .writeArray d.addr d.len d.p
  | .ok .readArray => .readArray d.addr d.len
  | .ok .prevWriteAddr => .prevWriteAddr
  | .ok .prevReadAddr => .prevReadAddr
  | .ok .validateBounds => .validateBounds d.addr
  | .ok .convert => .convert d.addr
  | .ok .validateWindow => .validateWindow d.addr d.len

/-! ### The encoder (R81, R98) -/

/-- Sixteen zero payload bytes: R98's "unstated P bytes are 0". -/
def zeroPayload : Vector Byte 16 := Vector.replicate 16 0#8

/-- A descriptor from its header, ADDR and LEN, with P all 0. -/
def descriptor (h addr len : Word) : Descriptor := ⟨h, addr, len, zeroPayload⟩

/-- One bit of the header at position k. -/
def Header.bit (b : Bool) (k : Nat) : Word := (BitVec.ofBool b).setWidth 32 <<< k

/-- The descriptor of a command, with every field the command ignores 0 (R98). -/
def encode : Instr → Descriptor
  | .construct a2 a1 a0 =>
      descriptor (Header.bit a2 6 ||| Header.bit a1 5 ||| Header.bit a0 4 ||| 0x1#32) 0#32 0#32
  | .release => descriptor 0x2#32 0#32 0#32
  | .writeByte a d => descriptor (d.setWidth 32 <<< 8 ||| 0x3#32) a 0#32
  | .readByte a => descriptor 0x4#32 a 0#32
  | .writeArray a n p => ⟨0x5#32, a, n, p⟩
  | .readArray a n => descriptor 0x6#32 a n
  | .prevWriteAddr => descriptor 0x7#32 0#32 0#32
  | .prevReadAddr => descriptor 0x8#32 0#32 0#32
  | .validateBounds a => descriptor 0x9#32 a 0#32
  | .convert a => descriptor 0xA#32 a 0#32
  | .validateWindow a n => descriptor 0xB#32 a n
  | .illegal h => descriptor h 0#32 0#32

/-! ### The opcode table's rows (R87) -/

/-- One row of spec/opcode_table.json: a legal header is one with `h &&& mask = pat` for it. -/
structure OpcodeRow where
  opcode : Opcode
  pat    : Word
  mask   : Word
deriving DecidableEq, Repr

/-- The eleven rows that have a match and a mask, in the table's order. -/
def opcodeTable : List OpcodeRow :=
  [ ⟨.construct,      0x00000001#32, 0xFFFFFF8F#32⟩,
    ⟨.release,        0x00000002#32, 0xFFFFFFFF#32⟩,
    ⟨.writeByte,      0x00000003#32, 0xFFFF00FF#32⟩,
    ⟨.readByte,       0x00000004#32, 0xFFFFFFFF#32⟩,
    ⟨.writeArray,     0x00000005#32, 0xFFFFFFFF#32⟩,
    ⟨.readArray,      0x00000006#32, 0xFFFFFFFF#32⟩,
    ⟨.prevWriteAddr,  0x00000007#32, 0xFFFFFFFF#32⟩,
    ⟨.prevReadAddr,   0x00000008#32, 0xFFFFFFFF#32⟩,
    ⟨.validateBounds, 0x00000009#32, 0xFFFFFFFF#32⟩,
    ⟨.convert,        0x0000000A#32, 0xFFFFFFFF#32⟩,
    ⟨.validateWindow, 0x0000000B#32, 0xFFFFFFFF#32⟩ ]

/-- The rows a header matches. -/
def rowsMatching (h : Word) : List OpcodeRow :=
  opcodeTable.filter fun r => h &&& r.mask == r.pat

/-! ### Descriptors as one number -/

/-- The descriptor whose fields are laid out in one number, H lowest, then ADDR, LEN and P[0] to P[15]: the reading that
the host's table words need. DESIGN CHOICE, log entry 12: the spec lays a descriptor out as four fields, not as bytes. -/
def Descriptor.ofBits (w : Nat) : Descriptor :=
  { h := BitVec.ofNat 32 w
    addr := BitVec.ofNat 32 (w >>> 32)
    len := BitVec.ofNat 32 (w >>> 64)
    p := Vector.ofFn fun i => BitVec.ofNat 8 (w >>> (96 + 8 * i.val)) }

/-- The descriptor a table word of nbits bits stands for: every bit above nbits is 0. -/
def Descriptor.ofTableWord (nbits w : Nat) : Descriptor := Descriptor.ofBits (w % 2 ^ nbits)

/-- What the decoder reads from a table word. The decoder is total, so it never answers none. -/
def decodeTableWord (nbits w : Nat) : Option Instr := some (decode (Descriptor.ofTableWord nbits w))

end Sys2Proof
end

