-- ==== Sys2Proof/Machine/Fetch.lean ====
section
/-! DEFINITION. Where a command comes from (R28, R68, R80): the host's next descriptor is latched into CMD in IDLE, and in any
other state CMD holds the command in flight. Also how far a command gets before a reset strikes (R261). -/

namespace Sys2Proof.Machine

/-- The command to run and the state to run it in. In IDLE the host's next descriptor is taken and latched into CMD, or there
is none; otherwise the latched command goes on, and the host's list is not looked at (R80, R152). -/
def fetch (s : State) : Option (Instr × State) :=
  if s.seq = .idle then
    match s.host with
    | [] => none
    | d :: rest => some (decode d, { s with cmd := d, host := rest })
  else some (decode s.cmd, s)

/-- k moves of the sequencer from s, with the command that is next or in flight; with none, nothing moves (R243). From IDLE the
first of them latches the host's next descriptor and leaves IDLE, so that with none a reset comes before the latch and the
descriptor stays the host's; R261 settles neither order, and both can happen (DESIGN CHOICE, log entry 7). -/
def advance (k : Nat) (s : State) : Result :=
  match fetch s with
  | none => .next s
  | some (i, s1) =>
    if s.seq = .idle then
      match k with
      | 0 => .next s
      | k + 1 => runMoves (moveOf i) k (accept s1)
    else runMoves (moveOf i) k s1

/-- A reset strikes after its number of moves (R260, R261). -/
def strike (r : ResetStrike) (s : State) : Result :=
  andThen (advance r.after s) fun s1 => .next (hardReset r.fate s1)

/-- The host has put a table word's descriptor next, and the core is idle with no reset asserted: what withFetchWord sets (log
entry 10). -/
def placeCommand (d : Descriptor) (s : State) : State :=
  { s with seq := .idle, resetIn := none, host := d :: s.host }

end Sys2Proof.Machine
end

