-- ==== Sys2Proof/Machine/Step.lean ====
section
/-! DEFINITION. One step of the machine. An asserted reset strikes; otherwise the command that is next or in flight runs until
its response is delivered or it waits for the transport; with no command the core stays idle (R243). -/

namespace Sys2Proof.Machine

/-- One step. -/
def step (s : State) : Host.Outcome State Fault Refusal :=
  match s.resetIn with
  | some r => strike r s
  | none =>
    match fetch s with
    | none => .next s
    | some (i, s1) => exec i s1

/-- s with a table word's command as the host's next. -/
def State.withFetchWord (s : State) (nbits w : Nat) : State :=
  placeCommand (Descriptor.ofTableWord nbits w) s

end Sys2Proof.Machine
end

