-- ==== Sys2Proof/Machine/Assembler.lean ====
section
/-! DEFINITION. The spec's assembly syntax (30_encoding.md R98): one line, one descriptor. Lines are syntax trees; reading
them from text is not modelled (log entry 20). -/

namespace Sys2Proof.Machine

/-- A line of R98's table. -/
inductive AsmLine where
  | construct (a2 a1 a0 : Bool)
  | release
  | writeByte (addr : Word) (d : Byte)
  | readByte (addr : Word)
  /-- `WRITE_ARRAY addr, n, {b0, ..., bk-1}`. -/
  | writeArray (addr n : Word) (bytes : List Byte)
  | readArray (addr n : Word)
  | prevWriteAddr
  | prevReadAddr
  | validateBounds (addr : Word)
  | convert (addr : Word)
  | validateWindow (addr n : Word)
  /-- `.cmd h, addr, n`: a raw descriptor. -/
  | cmd (h addr n : Word)
deriving DecidableEq, Repr

/-- R98: "k = min(n, 16) and the list must have exactly k bytes". -/
def asmWf : AsmLine → Bool
  | .construct _ _ _ => true
  | .release => true
  | .writeByte _ _ => true
  | .readByte _ => true
  | .writeArray _ n bytes => bytes.length == min n.toNat 16
  | .readArray _ _ => true
  | .prevWriteAddr => true
  | .prevReadAddr => true
  | .validateBounds _ => true
  | .convert _ => true
  | .validateWindow _ _ => true
  | .cmd _ _ _ => true

/-- P[i] = bi for i < k and 0 beyond (R98). -/
def asmPayload (bytes : List Byte) : Vector Byte 16 :=
  Vector.ofFn fun i => (bytes[i.val]?).getD 0#8

/-- A configuration bit of CONSTRUCT as a number. -/
def asmBit (b : Bool) : Word := if b then 1#32 else 0#32

/-- The descriptor of a line, from R98's table. -/
def assemble : AsmLine → Descriptor
  | .construct a2 a1 a0 =>
      descriptor (asmBit a2 <<< 6 ||| asmBit a1 <<< 5 ||| asmBit a0 <<< 4 ||| 0x1#32) 0#32 0#32
  | .release => descriptor 0x2#32 0#32 0#32
  | .writeByte a d => descriptor (d.setWidth 32 <<< 8 ||| 0x3#32) a 0#32
  | .readByte a => descriptor 0x4#32 a 0#32
  | .writeArray a n bytes => ⟨0x5#32, a, n, asmPayload bytes⟩
  | .readArray a n => descriptor 0x6#32 a n
  | .prevWriteAddr => descriptor 0x7#32 0#32 0#32
  | .prevReadAddr => descriptor 0x8#32 0#32 0#32
  | .validateBounds a => descriptor 0x9#32 a 0#32
  | .convert a => descriptor 0xA#32 a 0#32
  | .validateWindow a n => descriptor 0xB#32 a n
  | .cmd h a n => descriptor h a n

end Sys2Proof.Machine
end

