-- ==== Sys2Proof/Machine/Memory.lean ====
section
/-! DEFINITION. The memory of the spec's reference device (92_eei_decisions.md D28), M[0..511]. The core itself has no memory
(20_memory.md); this is the test harness's. A list of (address, byte) pairs in one canonical form. -/

namespace Sys2Proof.Machine

/-- M as the list of its bytes that are not 0xFF. -/
abbrev Memory := List Host.Cell

/-- What an unlisted address reads as: M is initially all 0xFF (D28). -/
def erased : Byte := 0xFF#8

/-- The canonical form: addresses strictly rising and below 512, no entry equal to what an unlisted address reads as. -/
abbrev Memory.wf (m : Memory) : Prop :=
  m.Pairwise (fun c d => c.1 < d.1) ∧ ∀ c ∈ m, c.1 < 512 ∧ c.2 ≠ erased

/-- M[a]. -/
def readMem : Memory → Nat → Byte
  | [], _ => erased
  | (k, v) :: m, a => if a = k then v else readMem m a

/-- The entry for b at a, or none where b is what an unlisted address reads as. -/
def cellFor (a : Nat) (b : Byte) : Memory := if b = erased then [] else [(a, b)]

/-- M[a] = b. -/
def writeMem : Memory → Nat → Byte → Memory
  | [], a, b => cellFor a b
  | (k, v) :: m, a, b =>
    if a < k then cellFor a b ++ (k, v) :: m
    else if a = k then cellFor a b ++ m
    else (k, v) :: writeMem m a b

/-- M[a + i] = d[i] for each i. -/
def writeBytes (m : Memory) (a : Nat) : List Byte → Memory
  | [] => m
  | b :: bs => writeBytes (writeMem m a b) (a + 1) bs

end Sys2Proof.Machine
end

