-- ==== Sys2Proof/Machine/RefDevice.lean ====
section
/-! DEFINITION. The reference device of 92_eei_decisions.md D28, the spec's own test harness and not a claim about the real
device. It is outside the core; the spec uses it where an exchange must be answered. -/

namespace Sys2Proof.Machine

/-- The reference device: memory M, page bit PG, and the bus address its memory array answers at. -/
structure RefDevice where
  mem  : Memory
  page : Bool
  addr : BusAddr
deriving DecidableEq, Repr

/-- Where PG's page begins in M: `256*PG`. -/
def RefDevice.base (v : RefDevice) : Nat := if v.page then 256 else 0

/-- The device of D28 at the start: M all 0xFF, PG = 0. -/
def RefDevice.initial (addr : BusAddr) : RefDevice := ⟨[], false, addr⟩

/-- What an exchange does to the device (D28). -/
def RefDevice.after (v : RefDevice) : Exchange → RefDevice
  | .write ba bytes =>
    if ba = Config.pageFn then { v with page := false }
    else if ba = Config.pageFn ||| 1#7 then { v with page := true }
    else if ba = v.addr then
      match bytes with
      | [] => v
      | off :: data => { v with mem := writeBytes v.mem (v.base + off.toNat) (data.take (256 - off.toNat)) }
    else v
  | .writeRead _ _ _ => v

/-- The byte the device answers as the i-th: `M[256*PG + o + i]` for `o + i <= 255` (D28). Past the page D28 gives none and
the core asks for none: a free byte, a DESIGN CHOICE (log entry 16). -/
def RefDevice.byteAt (v : RefDevice) (off : Byte) (i : Nat) : Byte :=
  if off.toNat + i ≤ 255 then readMem v.mem (v.base + off.toNat + i) else Config.freeDeviceByte v.addr off i

/-- The device's answer: always Ok (D28). D28 gives the bytes of a write-then-read of one offset byte at the device's own address
only; at any other address, or with no offset byte or several, the bytes are free, a DESIGN CHOICE (log entry 16). -/
def RefDevice.answer (v : RefDevice) (x : Exchange) : Answer :=
  let off := x.sent.headD 0#8
  .ok (Vector.ofFn fun i =>
    if x.busAddr = v.addr ∧ x.sent.length = 1 then v.byteAt off i.val else Config.freeDeviceByte x.busAddr off i.val)

end Sys2Proof.Machine
end

