-- ==== Sys2Proof/Machine/Bench.lean ====
section
/-! DEFINITION. The core with the reference device as its transport (95_test_vectors.md's setting): whenever the core waits and
no answer lies ready, the device performs the outstanding exchange and answers it. No reset is meant to be asserted here (log
entry 16). -/

namespace Sys2Proof.Machine

/-- The core and the reference device. -/
structure Bench where
  core : State
  dev  : RefDevice
deriving DecidableEq, Repr

/-- The device performs and answers the outstanding exchange, if there is one and no answer lies ready. Where an answer lies
ready (an injected Err, or an Ok from elsewhere) the exchange is answered from outside and the device is left as it is: D28
answers every exchange Ok and the spec is silent on what another answer does to it (DESIGN CHOICE, log entry 16). -/
def Bench.serve (b : Bench) : Bench :=
  match b.core.bus, b.core.answers with
  | some x, [] => { core := { b.core with answers := [b.dev.answer x] }, dev := b.dev.after x }
  | some _, _ :: _ => b
  | none, _ => b

/-- The device answers if it has to, then the core steps. -/
def Bench.step (b : Bench) : Host.Outcome Bench Fault Refusal :=
  match Machine.step b.serve.core with
  | .next c => .next { core := c, dev := b.serve.dev }
  | .fault e => .fault e
  | .refused e => .refused e

/-- k steps. -/
def Bench.run : Nat → Bench → Host.Outcome Bench Fault Refusal
  | 0, b => .next b
  | k + 1, b =>
    match b.step with
    | .next c => Bench.run k c
    | .fault e => .fault e
    | .refused e => .refused e

end Sys2Proof.Machine
end

