-- ==== Sys2Proof/Safety.lean ====
section
/-! DEFINITION. The terms claims are stated in: how a command's end and its exchanges show in the state, what it issued, what a
consistent state is, what a safe run is, and a change of the transport's error values. -/

namespace Sys2Proof.Machine

/-! ### The end of a command -/

/-- The state after a command that ended with response r and wrote no register. -/
def State.endWith (r : Response) (s : State) : State :=
  { s with pending := none, responses := s.responses ++ [r] }

/-- The response of an error (R89): STATUS, and TERR where the transport gave one. -/
def failed (st : Status) (e : Option TErr) : Response := ⟨st, 0#32, 0#8, [], e⟩

/-- The response of a success (R89, R91): RLEN counts RDATA. -/
def succeeded (rval : Word) (rdata : List Byte) : Response := ⟨.ok, rval, BitVec.ofNat 8 rdata.length, rdata, none⟩

/-- The state after exchanges that ended as in xs, with the answers `rest` left and none outstanding. -/
def State.exchanged (xs : List Record) (rest : List Answer) (s : State) : State :=
  { s with bus := none, answers := rest, trace := s.trace ++ xs }

/-- The command waits in state q for an answer to x (R150, R152). -/
def State.waitingFor (q : Seq) (x : Exchange) (s : State) : State :=
  { s with seq := q, bus := some x }

/-- The page-select pre-write of a linear address, in a trace entry (R151). -/
def presel (a : Word) (e : Ending) : Record := ⟨.write (pageSelect a) Config.preselFill, e⟩

/-- The states that wait for the transport (R29). -/
def Seq.waiting : Seq → Bool
  | .idle => false
  | .check => false
  | .presel => true
  | .dummy => true
  | .mult => false
  | .xfer => true
  | .done => false

/-- The exchanges issued between two states, in order, the outstanding one last (R16). -/
def issued (s t : State) : List Exchange :=
  (t.trace.drop s.trace.length).map Record.xchg ++ t.bus.toList

/-- The trace entries added between two states (R16). -/
def settled (s t : State) : List Record := t.trace.drop s.trace.length

/-- The responses delivered between two states (R16). -/
def delivered (s t : State) : List Response := t.responses.drop s.responses.length

/-! ### Commands -/

/-- The binding gate's table (R205): the commands refused in each BOUND state. -/
def refusedByGate (bound : Bool) : Instr → Bool
  | .construct _ _ _ => bound
  | .release => !bound
  | .writeByte _ _ => !bound
  | .readByte _ => !bound
  | .writeArray _ _ _ => !bound
  | .readArray _ _ => !bound
  | .prevWriteAddr => !bound
  | .prevReadAddr => !bound
  | .validateBounds _ => false
  | .convert _ => false
  | .validateWindow _ _ => false
  | .illegal _ => false

/-- The linear address of a data command. -/
def dataAddress : Instr → Option Word
  | .construct _ _ _ => none
  | .release => none
  | .writeByte a _ => some a
  | .readByte a => some a
  | .writeArray a _ _ => some a
  | .readArray a _ => some a
  | .prevWriteAddr => none
  | .prevReadAddr => none
  | .validateBounds _ => none
  | .convert _ => none
  | .validateWindow _ _ => none
  | .illegal _ => none

/-- The window of a multi-byte access passes (R59). -/
def windowPasses (a n : Word) : Prop :=
  (inPageOffset a).toNat + n.toNat ≤ if (inPageOffset a).toNat < 128 then 0x7F else 0xFF

/-- The checks before PRESEL other than the gate pass (R157). No other command reaches PRESEL. -/
def checksPass : Instr → Prop
  | .construct _ _ _ => False
  | .release => False
  | .writeByte a _ => a.toNat < 512
  | .readByte a => a.toNat < 512
  | .writeArray a n _ => n.toNat ≤ 16 ∧ a.toNat < 512 ∧ windowPasses a n
  | .readArray a n => a.toNat < 512 ∧ windowPasses a n
  | .prevWriteAddr => False
  | .prevReadAddr => False
  | .validateBounds _ => False
  | .convert _ => False
  | .validateWindow _ _ => False
  | .illegal _ => False

/-- The exchanges of a command that succeeds, in order (R97). -/
def exchangesOf (devAddr : BusAddr) : Instr → List Exchange
  | .construct _ _ _ => []
  | .release => []
  | .writeByte a d =>
    [.write (pageSelect a) Config.preselFill, .write devAddr [inPageOffset a, d]]
  | .readByte a =>
    [.write (pageSelect a) Config.preselFill, .writeRead devAddr [inPageOffset a] 1]
  | .writeArray a n p =>
    [.write (pageSelect a) Config.preselFill, .write devAddr (inPageOffset a :: p.toList.take n.toNat)]
  | .readArray a n =>
    [.write (pageSelect a) Config.preselFill, .writeRead devAddr [inPageOffset a] 1,
      .writeRead devAddr [inPageOffset a] n.toNat]
  | .prevWriteAddr => []
  | .prevReadAddr => []
  | .validateBounds _ => []
  | .convert _ => []
  | .validateWindow _ _ => []
  | .illegal _ => []

/-- The exchange a data command has outstanding in each waiting state (R97). -/
def outstanding (devAddr : BusAddr) : Instr → Seq → Option Exchange
  | .writeByte a _, .presel => some (.write (pageSelect a) Config.preselFill)
  | .writeByte a d, .xfer => some (.write devAddr [inPageOffset a, d])
  | .readByte a, .presel => some (.write (pageSelect a) Config.preselFill)
  | .readByte a, .xfer => some (.writeRead devAddr [inPageOffset a] 1)
  | .writeArray a _ _, .presel => some (.write (pageSelect a) Config.preselFill)
  | .writeArray a n p, .xfer => some (.write devAddr (inPageOffset a :: p.toList.take n.toNat))
  | .readArray a _, .presel => some (.write (pageSelect a) Config.preselFill)
  | .readArray a _, .dummy => some (.writeRead devAddr [inPageOffset a] 1)
  | .readArray a n, .xfer => some (.writeRead devAddr [inPageOffset a] n.toNat)
  | _, _ => none

/-! ### Well-formed observations -/

/-- An address the memory array can answer at: RW_FN with any CFG (R93). -/
def deviceBusAddress (ba : BusAddr) : Prop := ∃ a2 a1 a0 : Bool, ba = deviceAddress a2 a1 a0

/-- The response format (R89, R90): nothing is returned on an error, RLEN counts RDATA and is at most 127, and TERR is there
exactly for TransportError. -/
def Response.wellFormed (r : Response) : Prop :=
  (r.status ≠ .ok → r.rval = 0#32 ∧ r.rlen = 0#8 ∧ r.rdata = []) ∧
  r.rdata.length = r.rlen.toNat ∧ r.rlen.toNat ≤ 127 ∧
  (r.terr.isSome = true ↔ r.status = .transportError)

/-- The forms of R97: a pre-write of the two fill bytes, a write of 2 to 17 bytes to the memory array, or a write of one byte
and a read of at most 127 from it. -/
def Exchange.wellFormed : Exchange → Prop
  | .write ba bytes =>
    ((ba = Config.pageFn ∨ ba = Config.pageFn ||| 1#7) ∧ bytes = Config.preselFill) ∨
    (deviceBusAddress ba ∧ 2 ≤ bytes.length ∧ bytes.length ≤ 17)
  | .writeRead ba wbytes n => deviceBusAddress ba ∧ wbytes.length = 1 ∧ n ≤ 127

/-- A trace entry: a well-formed exchange that received, if it was answered Ok, exactly the bytes it asked for (R96). -/
def Record.wellFormed (x : Record) : Prop :=
  x.xchg.wellFormed ∧ ∀ r, x.ending = .ok r → r.length = x.xchg.readLen

/-! ### Consistent states -/

/-- The states the core can be in, whatever the host and the transport do. -/
structure Consistent (s : State) : Prop where
  /-- SEQ is on the path of the latched command (R150). -/
  onPath : s.seq ∈ pathOf (decode s.cmd)
  /-- An exchange is outstanding exactly in the waiting states, and it is the one R97 gives the command there. -/
  busIsCommands : s.bus = if s.seq.waiting then outstanding s.devAddr (decode s.cmd) s.seq else none
  /-- A waiting state has its exchange. -/
  busWhileWaiting : s.seq.waiting = true → s.bus.isSome = true
  /-- A response is being delivered exactly in DONE (R29). -/
  pendingInDone : s.pending.isSome = true ↔ s.seq = .done
  /-- Past CHECK a handle exists and the checks before PRESEL have passed (R33, R157). -/
  checked : s.seq.waiting = true ∨ s.seq = .mult → s.bound = true ∧ checksPass (decode s.cmd)
  /-- WRITE_ARRAY reaches XFER only with a legal length (R156). -/
  multiple : ∀ a n p, decode s.cmd = .writeArray a n p → s.seq = .xfer → legalMultiple n = true
  /-- While a handle exists DEVADDR is RW_FN with some CFG (R24, R93). -/
  handle : s.bound = true → deviceBusAddress s.devAddr
  /-- The response being delivered is well formed. -/
  pendingFormed : ∀ r, s.pending = some r → r.wellFormed
  /-- Every response delivered is well formed. -/
  responsesFormed : ∀ r ∈ s.responses, r.wellFormed
  /-- Every exchange in the trace is well formed. -/
  traceFormed : ∀ x ∈ s.trace, x.wellFormed

/-- A safe run: however many steps are taken, the machine neither faults nor refuses. -/
def SafeRun (s : State) : Prop := ∀ k : Nat, ∃ t, Host.Core.run Sys2Proof.core k s = .next t

/-- The run of the host's commands has ended (R269): nothing is in flight and nothing more will be issued. A run whose last
command a reset cut counts as ended too: R269 asks for the last command's response, R261 gives that command none, and the two
together settle nothing (DESIGN CHOICE, log entry 21). -/
def atRest (s : State) : Prop := s.seq = .idle ∧ s.host = []

/-! ### The transport's error values -/

/-- An answer with its error value changed by f. -/
def Answer.mapErr (f : TErr → TErr) : Answer → Answer
  | .ok rx => .ok rx
  | .err e => .err (f e)

/-- An ending with its error value changed by f. -/
def Ending.mapErr (f : TErr → TErr) : Ending → Ending
  | .ok r => .ok r
  | .err e => .err (f e)
  | .cut q => .cut q

/-- A trace entry with its error value changed by f. -/
def Record.mapErr (f : TErr → TErr) (x : Record) : Record := { x with ending := x.ending.mapErr f }

/-- A response with its error value changed by f. -/
def Response.mapErr (f : TErr → TErr) (r : Response) : Response := { r with terr := r.terr.map f }

/-- A state with every error value the transport has given, or will give, changed by f. -/
def State.mapErr (f : TErr → TErr) (s : State) : State :=
  { s with
    answers := s.answers.map (Answer.mapErr f)
    trace := s.trace.map (Record.mapErr f)
    pending := s.pending.map (Response.mapErr f)
    responses := s.responses.map (Response.mapErr f) }

/-- An outcome with its state changed by g. -/
def mapNext (g : State → State) : Result → Result
  | .next s => .next (g s)
  | .fault e => .fault e
  | .refused e => .refused e

end Sys2Proof.Machine
end

