-- ==== Sys2Proof/Certificates/Slice0/Obligations.lean ====
section
/-! DEFINITION. The statements. Each formalises numbered rules of spec/ or follows from them, as its docstring says; the terms
they share are in Safety.lean. -/

open Sys2Proof Sys2Proof.Machine

/-! ### Encoding -/

/-- 30_encoding.md sections 1, 2 and 6: no bit of a command is dropped on the way through its descriptor. -/
def Obligations.DecodingAnEncodedCommandGivesItBack : Prop :=
  ∀ i : Instr, i.wf = true → decode (encode i) = i

/-- The other direction (R81, R85): what is decoded is well formed, its header is the descriptor's whole header, and it is
encoded as a descriptor that means the same. -/
def Obligations.EncodingADecodedDescriptorKeepsItsHeader : Prop :=
  ∀ d : Descriptor, (decode d).wf = true ∧ (encode (decode d)).h = d.h ∧ decode (encode (decode d)) = decode d

/-- R87: the reserved and unused bits, and the equivalence with the opcode table's masks. The last clause is R86's outcome. -/
def Obligations.LegalHeadersMatchExactlyOneRow : Prop :=
  ∀ d : Descriptor,
    ((d.h.extractLsb' 16 16 ≠ 0#16 ∨ d.h.extractLsb' 7 1 ≠ 0#1 ∨
      (d.h.extractLsb' 8 8 ≠ 0#8 ∧ d.h.extractLsb' 0 4 ≠ 0x3#4) ∨
      (d.h.extractLsb' 4 3 ≠ 0#3 ∧ d.h.extractLsb' 0 4 ≠ 0x1#4)) → decode d = .illegal d.h) ∧
    (decode d = .illegal d.h ↔ rowsMatching d.h = []) ∧
    (decode d ≠ .illegal d.h → (rowsMatching d.h).length = 1) ∧
    (∀ s : State, decode d = .illegal d.h → s.seq = .idle →
      exec (decode d) s = .next (s.endWith (failed .illegalCommand none)))

/-- R86: opcodes 0x0 and 0xC to 0xF, with any other bits, any ADDR, LEN and P. -/
def Obligations.ReservedOpcodesAreIllegal : Prop :=
  ∀ (d : Descriptor) (s : State),
    d.h.extractLsb' 0 4 = 0x0#4 ∨ 0xC ≤ (d.h.extractLsb' 0 4).toNat → s.seq = .idle →
    exec (decode d) s = .next (s.endWith (failed .illegalCommand none))

/-- R85 and R88: a legal header means its opcode's command, with exactly the fields the map names; any other is illegal. -/
def Obligations.DecodingFollowsTheOpcodeMap : Prop :=
  ∀ (h addr len : Word) (p : Vector Byte 16),
    (headerLegal h = false → decode ⟨h, addr, len, p⟩ = .illegal h) ∧
    (headerLegal h = true →
      (h.extractLsb' 0 4 = 0x1#4 →
        decode ⟨h, addr, len, p⟩ = .construct (h.getLsbD 6) (h.getLsbD 5) (h.getLsbD 4)) ∧
      (h.extractLsb' 0 4 = 0x2#4 → decode ⟨h, addr, len, p⟩ = .release) ∧
      (h.extractLsb' 0 4 = 0x3#4 → decode ⟨h, addr, len, p⟩ = .writeByte addr (h.extractLsb' 8 8)) ∧
      (h.extractLsb' 0 4 = 0x4#4 → decode ⟨h, addr, len, p⟩ = .readByte addr) ∧
      (h.extractLsb' 0 4 = 0x5#4 → decode ⟨h, addr, len, p⟩ = .writeArray addr len p) ∧
      (h.extractLsb' 0 4 = 0x6#4 → decode ⟨h, addr, len, p⟩ = .readArray addr len) ∧
      (h.extractLsb' 0 4 = 0x7#4 → decode ⟨h, addr, len, p⟩ = .prevWriteAddr) ∧
      (h.extractLsb' 0 4 = 0x8#4 → decode ⟨h, addr, len, p⟩ = .prevReadAddr) ∧
      (h.extractLsb' 0 4 = 0x9#4 → decode ⟨h, addr, len, p⟩ = .validateBounds addr) ∧
      (h.extractLsb' 0 4 = 0xA#4 → decode ⟨h, addr, len, p⟩ = .convert addr) ∧
      (h.extractLsb' 0 4 = 0xB#4 → decode ⟨h, addr, len, p⟩ = .validateWindow addr len))

/-- R84: which payload bytes WRITE_ARRAY reads, and that no other opcode reads any. -/
def Obligations.OnlyThePayloadWithinTheLengthIsRead : Prop :=
  (∀ (h addr len : Word) (p q : Vector Byte 16), h.extractLsb' 0 4 ≠ 0x5#4 →
    decode ⟨h, addr, len, p⟩ = decode ⟨h, addr, len, q⟩) ∧
  (∀ (addr len : Word) (p : Vector Byte 16), decode ⟨0x5#32, addr, len, p⟩ = .writeArray addr len p) ∧
  (∀ (a n : Word) (p q : Vector Byte 16) (s : State),
    (∀ k : Fin 16, k.val < n.toNat → p[k] = q[k]) → exec (.writeArray a n p) s = exec (.writeArray a n q) s) ∧
  (∀ (a n : Word) (p : Vector Byte 16) (s : State), s.seq = .idle → s.bound = true → 16 < n.toNat →
    exec (.writeArray a n p) s = .next (s.endWith (failed .payloadTooLarge none)))

/-- R98's table: each line's descriptor means the command the line names. -/
def Obligations.AssembledLinesDecode : Prop :=
  (∀ a2 a1 a0 : Bool, decode (assemble (.construct a2 a1 a0)) = .construct a2 a1 a0) ∧
  decode (assemble .release) = .release ∧
  (∀ a d, decode (assemble (.writeByte a d)) = .writeByte a d) ∧
  (∀ a, decode (assemble (.readByte a)) = .readByte a) ∧
  (∀ a n bytes, asmWf (.writeArray a n bytes) = true → ∃ p : Vector Byte 16,
    decode (assemble (.writeArray a n bytes)) = .writeArray a n p ∧
      p.toList = bytes ++ List.replicate (16 - min n.toNat 16) 0#8) ∧
  (∀ a n, decode (assemble (.readArray a n)) = .readArray a n) ∧
  decode (assemble .prevWriteAddr) = .prevWriteAddr ∧
  decode (assemble .prevReadAddr) = .prevReadAddr ∧
  (∀ a, decode (assemble (.validateBounds a)) = .validateBounds a) ∧
  (∀ a, decode (assemble (.convert a)) = .convert a) ∧
  (∀ a n, decode (assemble (.validateWindow a n)) = .validateWindow a n) ∧
  (∀ h a n, assemble (.cmd h a n) = ⟨h, a, n, Vector.replicate 16 0#8⟩)

/-- Descriptors written out in 95_test_vectors.md (sections 2.6 and 3) mean the commands they stand for. Where the file gives a
header alone, or no P, the rest is 0, as R98 says of what a line does not state. -/
def Obligations.DescriptorsOfTheTestVectorsDecode : Prop :=
  decode ⟨0x00000051#32, 0#32, 0#32, zeroPayload⟩ = .construct true false true ∧
  decode ⟨0x00000021#32, 0#32, 0#32, zeroPayload⟩ = .construct false true false ∧
  decode ⟨0x00000002#32, 0#32, 0#32, zeroPayload⟩ = .release ∧
  decode ⟨0x0000A503#32, 0x1FF#32, 0#32, zeroPayload⟩ = .writeByte 0x1FF#32 0xA5#8 ∧
  decode ⟨0x00000004#32, 0x1FF#32, 0#32, zeroPayload⟩ = .readByte 0x1FF#32 ∧
  decode ⟨0x00000005#32, 0x180#32, 2#32, overlay [0xDE#8, 0xAD#8] zeroPayload⟩ =
    .writeArray 0x180#32 2#32 (overlay [0xDE#8, 0xAD#8] zeroPayload) ∧
  decode ⟨0x00000006#32, 0x060#32, 16#32, zeroPayload⟩ = .readArray 0x060#32 16#32 ∧
  decode ⟨0x0000000B#32, 0x077#32, 8#32, zeroPayload⟩ = .validateWindow 0x077#32 8#32 ∧
  decode ⟨0x00000104#32, 5#32, 0#32, zeroPayload⟩ = .illegal 0x00000104#32 ∧
  decode ⟨0x00000013#32, 0#32, 0#32, zeroPayload⟩ = .illegal 0x00000013#32 ∧
  decode ⟨0x00000F81#32, 0#32, 0#32, zeroPayload⟩ = .illegal 0x00000F81#32

/-! ### The translator -/

/-- R121. -/
def Obligations.BoundsCheckFailsFrom512 : Prop :=
  ∀ a : Word, (a.toNat < 512 → validateBounds a = .ok ()) ∧
    (512 ≤ a.toNat → validateBounds a = .error .addressOutOfRange)

/-- R122, with R92 and R94's formulas for the two parts. -/
def Obligations.ConversionGoesByQuadrant : Prop :=
  ∀ a : Word,
    (a.toNat < 128 → convert a = .ok (Config.pageFn, BitVec.ofNat 8 a.toNat)) ∧
    (128 ≤ a.toNat → a.toNat < 256 → convert a = .ok (Config.pageFn, BitVec.ofNat 8 a.toNat)) ∧
    (256 ≤ a.toNat → a.toNat < 384 → convert a = .ok (Config.pageFn ||| 1#7, BitVec.ofNat 8 a.toNat)) ∧
    (384 ≤ a.toNat → a.toNat < 512 → convert a = .ok (Config.pageFn ||| 1#7, BitVec.ofNat 8 a.toNat)) ∧
    (512 ≤ a.toNat → convert a = .error .addressConversionFailure) ∧
    (a.toNat < 512 →
      convert a = .ok (Config.pageFn ||| (a.extractLsb' 8 1).setWidth 7, a.extractLsb' 0 8))

/-- R53's bijection from 0 to 511 onto the two pages' 256 offsets. R53 says it under the proviso `PAGE_FN[0] = 0`; here that
constraint is the model's, built into Config.pageFn (log entry 2). -/
def Obligations.ConversionIsABijection : Prop :=
  (∀ a b : Word, a.toNat < 512 → b.toNat < 512 → convert a = convert b → a = b) ∧
  (∀ (ps : BusAddr) (off : Byte), ps = Config.pageFn ∨ ps = Config.pageFn ||| 1#7 →
    ∃ a : Word, a.toNat < 512 ∧ convert a = .ok (ps, off))

/-- R124: the offset by the parity of the quadrant `a[8:7]`. -/
def Obligations.OffsetsFollowTheQuadrantsParity : Prop :=
  ∀ (a : Word) (ps : BusAddr) (off : Byte), convert a = .ok (ps, off) →
    ((a.extractLsb' 7 2 = 0#2 ∨ a.extractLsb' 7 2 = 2#2) → off.toNat ≤ 0x7F) ∧
    ((a.extractLsb' 7 2 = 1#2 ∨ a.extractLsb' 7 2 = 3#2) → 0x80 ≤ off.toNat ∧ off.toNat ≤ 0xFF)

/-- R128 with R125's maximum and R127's exact sum. -/
def Obligations.WindowCheckComparesTheExactSum : Prop :=
  ∀ a n : Word,
    (512 ≤ a.toNat → validateWindow a n = .error .addressConversionFailure) ∧
    (a.toNat < 512 →
      (a.toNat % 256 + n.toNat ≤ (if a.getLsbD 7 then 0xFF else 0x7F) → validateWindow a n = .ok ()) ∧
      ((if a.getLsbD 7 then 0xFF else 0x7F) < a.toNat % 256 + n.toNat →
        validateWindow a n = .error .pageWriteWindowOverflow) ∧
      (0xFF < n.toNat → validateWindow a n = .error .pageWriteWindowOverflow))

/-- R129, its five consequences in order. -/
def Obligations.WindowConsequences : Prop :=
  (∀ a : Word, a.toNat < 512 → validateWindow a 0#32 = .ok ()) ∧
  (∀ a n : Word, validateWindow a n = .ok () → n.toNat ≤ 127) ∧
  (∀ a : Word, validateWindow a 127#32 = .ok () ↔
    a = 0x000#32 ∨ a = 0x080#32 ∨ a = 0x100#32 ∨ a = 0x180#32) ∧
  (∀ a n : Word, a.toNat < 512 → a.toNat % 128 = 127 → (validateWindow a n = .ok () ↔ n = 0#32)) ∧
  (∀ a n : Word, validateWindow a n = .ok () → 0 < n.toNat →
    a.toNat % 256 + n.toNat - 1 ≤ (if a.getLsbD 7 then 0xFF else 0x7F) - 1) ∧
  (∀ a : Word, a.toNat < 512 →
    (validateWindow a 16#32 = .ok () ↔
      a.toNat % 256 ≤ 0x6F ∨ (0x80 ≤ a.toNat % 256 ∧ a.toNat % 256 ≤ 0xEF)) ∧
    (validateWindow a 8#32 = .ok () ↔
      a.toNat % 256 ≤ 0x77 ∨ (0x80 ≤ a.toNat % 256 ∧ a.toNat % 256 ≤ 0xF7)) ∧
    (validateWindow a 4#32 = .ok () ↔
      a.toNat % 256 ≤ 0x7B ∨ (0x80 ≤ a.toNat % 256 ∧ a.toNat % 256 ≤ 0xFB)) ∧
    (validateWindow a 2#32 = .ok () ↔
      a.toNat % 256 ≤ 0x7D ∨ (0x80 ≤ a.toNat % 256 ∧ a.toNat % 256 ≤ 0xFD)))

/-- R130: VALIDATE_BOUNDS, in any state that is idle; nothing else changes. -/
def Obligations.ValidateBoundsReportsTheBoundsCheck : Prop :=
  ∀ (a : Word) (s : State), s.seq = .idle →
    (a.toNat < 512 → exec (.validateBounds a) s = .next (s.endWith (succeeded 0#32 []))) ∧
    (512 ≤ a.toNat → exec (.validateBounds a) s = .next (s.endWith (failed .addressOutOfRange none)))

/-- R131: CONVERT packs page select and offset into RVAL; nothing else changes. -/
def Obligations.ConvertReturnsThePhysicalAddress : Prop :=
  ∀ (a : Word) (s : State), s.seq = .idle →
    (a.toNat < 512 → ∃ v : Word,
      v.extractLsb' 8 7 = Config.pageFn ||| (a.extractLsb' 8 1).setWidth 7 ∧ v.extractLsb' 0 8 = a.extractLsb' 0 8 ∧
      v.extractLsb' 15 17 = 0#17 ∧ exec (.convert a) s = .next (s.endWith (succeeded v []))) ∧
    (512 ≤ a.toNat → exec (.convert a) s = .next (s.endWith (failed .addressConversionFailure none)))

/-- R132: VALIDATE_WINDOW; nothing else changes. -/
def Obligations.ValidateWindowReportsTheWindowCheck : Prop :=
  ∀ (a n : Word) (s : State), s.seq = .idle →
    (a.toNat < 512 → a.toNat % 256 + n.toNat ≤ (if a.getLsbD 7 then 0xFF else 0x7F) →
      exec (.validateWindow a n) s = .next (s.endWith (succeeded 0#32 []))) ∧
    (a.toNat < 512 → (if a.getLsbD 7 then 0xFF else 0x7F) < a.toNat % 256 + n.toNat →
      exec (.validateWindow a n) s = .next (s.endWith (failed .pageWriteWindowOverflow none))) ∧
    (512 ≤ a.toNat →
      exec (.validateWindow a n) s = .next (s.endWith (failed .addressConversionFailure none)))

/-- R120: the response of a translator command depends on its operands alone, and the command writes no register. -/
def Obligations.TranslatorCommandsReadNoRegister : Prop :=
  ∀ a n : Word, ∀ i ∈ [Instr.validateBounds a, Instr.convert a, Instr.validateWindow a n],
    ∃ r : Response, ∀ s : State, s.seq = .idle → exec i s = .next (s.endWith r)

/-! ### The handle -/

/-- R200: CONSTRUCT writes the four handle registers, or changes nothing if a handle exists. -/
def Obligations.ConstructBindsTheHandle : Prop :=
  ∀ (a2 a1 a0 : Bool) (s : State), s.seq = .idle →
    (s.bound = false → exec (.construct a2 a1 a0) s = .next
      (({ s with
          devAddr := Config.rwFn ||| ((BitVec.ofBool a2).setWidth 7 <<< 2) |||
            ((BitVec.ofBool a1).setWidth 7 <<< 1) ||| (BitVec.ofBool a0).setWidth 7
          lastW := 0#9, lastR := 0#9, bound := true } : State).endWith (succeeded 0#32 []))) ∧
    (s.bound = true → exec (.construct a2 a1 a0) s = .next (s.endWith (failed .illegalCommand none)))

/-- R25 with R93: under `RW_FN[2:0] = 0` the configuration bits are DEVADDR[2:0], and the other bits are RW_FN's. -/
def Obligations.ConfigurationBitsAreInTheDeviceAddress : Prop :=
  ∀ (a2 a1 a0 : Bool) (s : State), s.seq = .idle → s.bound = false →
    ∃ t : State, exec (.construct a2 a1 a0) s = .next t ∧
      t.devAddr.getLsbD 2 = a2 ∧ t.devAddr.getLsbD 1 = a1 ∧ t.devAddr.getLsbD 0 = a0 ∧
      t.devAddr.extractLsb' 3 4 = Config.rwFn.extractLsb' 3 4

/-- R201: RELEASE clears BOUND. That DEVADDR, LASTW and LASTR keep their bits is the model's choice of the two R201 allows (log
entry 15). -/
def Obligations.ReleaseEndsTheHandle : Prop :=
  ∀ s : State, s.seq = .idle →
    (s.bound = true → exec .release s = .next (({ s with bound := false } : State).endWith (succeeded 0#32 []))) ∧
    (s.bound = false → exec .release s = .next (s.endWith (failed .illegalCommand none)))

/-- R202 and R203: the bookkeeping registers, zero-extended. -/
def Obligations.AccessorsReturnTheBookkeeping : Prop :=
  ∀ s : State, s.seq = .idle →
    (s.bound = true →
      exec .prevWriteAddr s = .next (s.endWith (succeeded (s.lastW.setWidth 32) [])) ∧
      exec .prevReadAddr s = .next (s.endWith (succeeded (s.lastR.setWidth 32) []))) ∧
    (s.bound = false →
      exec .prevWriteAddr s = .next (s.endWith (failed .illegalCommand none)) ∧
      exec .prevReadAddr s = .next (s.endWith (failed .illegalCommand none)))

/-- R204: an illegal header, in either BOUND state, with any ADDR, LEN and P. -/
def Obligations.IllegalCommandsChangeNothing : Prop :=
  ∀ (h addr len : Word) (p : Vector Byte 16) (s : State), headerLegal h = false → s.seq = .idle →
    decode ⟨h, addr, len, p⟩ = .illegal h ∧
    exec (.illegal h) s = .next (s.endWith (failed .illegalCommand none))

/-- R205: the gate's table. A refused command ends as R204 whatever its operands; an accepted one never ends so. -/
def Obligations.BindingGateFollowsItsTable : Prop :=
  ∀ (i : Instr) (s : State), s.seq = .idle →
    (refusedByGate s.bound i = true → exec i s = .next (s.endWith (failed .illegalCommand none))) ∧
    (refusedByGate s.bound i = false → (∀ h, i ≠ .illegal h) →
      ∀ t, exec i s = .next t → ∀ r ∈ delivered s t, r.status ≠ .illegalCommand)

/-! ### The data commands -/

/-- R153, every path of WRITE_BYTE: gate, bounds, and each answer the transport can give, or none. -/
def Obligations.WriteByteFollowsItsRule : Prop :=
  ∀ (a : Word) (d : Byte) (s : State), s.seq = .idle →
    (s.bound = false → exec (.writeByte a d) s = .next (s.endWith (failed .illegalCommand none))) ∧
    (s.bound = true → 512 ≤ a.toNat →
      exec (.writeByte a d) s = .next (s.endWith (failed .addressOutOfRange none))) ∧
    (s.bound = true → a.toNat < 512 →
      (s.answers = [] →
        exec (.writeByte a d) s = .next (s.waitingFor .presel (.write (pageSelect a) Config.preselFill))) ∧
      (∀ e rest, s.answers = .err e :: rest →
        exec (.writeByte a d) s = .next
          ((s.exchanged [presel a (.err e)] rest).endWith (failed .transportError (some e)))) ∧
      (∀ r0 rest, s.answers = .ok r0 :: rest → ∃ tx : Vector Byte 17,
        tx.toList = [inPageOffset a, d] ++ s.txBuf.toList.drop 2 ∧
        (rest = [] → exec (.writeByte a d) s = .next
          ((({ s with txBuf := tx } : State).exchanged [presel a (.ok [])] []).waitingFor .xfer
            (.write s.devAddr [inPageOffset a, d]))) ∧
        (∀ e rest', rest = .err e :: rest' → exec (.writeByte a d) s = .next
          ((({ s with txBuf := tx } : State).exchanged
            [presel a (.ok []), ⟨.write s.devAddr [inPageOffset a, d], .err e⟩] rest').endWith
              (failed .transportError (some e)))) ∧
        (∀ r1 rest', rest = .ok r1 :: rest' → exec (.writeByte a d) s = .next
          ((({ s with txBuf := tx, lastW := a.extractLsb' 0 9 } : State).exchanged
            [presel a (.ok []), ⟨.write s.devAddr [inPageOffset a, d], .ok []⟩] rest').endWith
              (succeeded 0#32 [])))))

/-- R154, every path of READ_BYTE. After an error past the gate RXBUF holds anything (R160; the model's count of free bytes
is `freeCtr`, log entry 8). -/
def Obligations.ReadByteFollowsItsRule : Prop :=
  ∀ (a : Word) (s : State), s.seq = .idle →
    (s.bound = false → exec (.readByte a) s = .next (s.endWith (failed .illegalCommand none))) ∧
    (s.bound = true → 512 ≤ a.toNat → ∃ (rx : Vector Byte 127) (k : Nat),
      exec (.readByte a) s = .next
        (({ s with rxBuf := rx, freeCtr := k } : State).endWith (failed .addressOutOfRange none))) ∧
    (s.bound = true → a.toNat < 512 →
      (s.answers = [] →
        exec (.readByte a) s = .next (s.waitingFor .presel (.write (pageSelect a) Config.preselFill))) ∧
      (∀ e rest, s.answers = .err e :: rest → ∃ (rx : Vector Byte 127) (k : Nat),
        exec (.readByte a) s = .next
          ((({ s with rxBuf := rx, freeCtr := k } : State).exchanged [presel a (.err e)] rest).endWith
            (failed .transportError (some e)))) ∧
      (∀ r0, s.answers = [.ok r0] → exec (.readByte a) s = .next
        ((s.exchanged [presel a (.ok [])] []).waitingFor .xfer (.writeRead s.devAddr [inPageOffset a] 1))) ∧
      (∀ r0 e rest, s.answers = .ok r0 :: .err e :: rest → ∃ (rx : Vector Byte 127) (k : Nat),
        exec (.readByte a) s = .next
          ((({ s with rxBuf := rx, freeCtr := k } : State).exchanged
            [presel a (.ok []), ⟨.writeRead s.devAddr [inPageOffset a] 1, .err e⟩] rest).endWith
              (failed .transportError (some e)))) ∧
      (∀ r0 r1 rest, s.answers = .ok r0 :: .ok r1 :: rest → ∃ rx : Vector Byte 127,
        rx.toList = r1[0] :: s.rxBuf.toList.drop 1 ∧
        exec (.readByte a) s = .next
          ((({ s with rxBuf := rx, lastR := a.extractLsb' 0 9 } : State).exchanged
            [presel a (.ok []), ⟨.writeRead s.devAddr [inPageOffset a] 1, .ok [r1[0]]⟩] rest).endWith
              (succeeded (r1[0].setWidth 32) [r1[0]]))))

/-- R155, every path of READ_ARRAY. After an error past the gate RXBUF holds anything (R160; log entry 8), and so may DUMMY
after a failed dummy read (log entry 14). -/
def Obligations.ReadArrayFollowsItsRule : Prop :=
  ∀ (a n : Word) (s : State), s.seq = .idle →
    (s.bound = false → exec (.readArray a n) s = .next (s.endWith (failed .illegalCommand none))) ∧
    (s.bound = true → 512 ≤ a.toNat → ∃ (rx : Vector Byte 127) (k : Nat),
      exec (.readArray a n) s = .next
        (({ s with rxBuf := rx, freeCtr := k } : State).endWith (failed .addressOutOfRange none))) ∧
    (s.bound = true → a.toNat < 512 → ¬ windowPasses a n → ∃ (rx : Vector Byte 127) (k : Nat),
      exec (.readArray a n) s = .next
        (({ s with rxBuf := rx, freeCtr := k } : State).endWith (failed .pageWriteWindowOverflow none))) ∧
    (s.bound = true → a.toNat < 512 → windowPasses a n →
      (s.answers = [] →
        exec (.readArray a n) s = .next (s.waitingFor .presel (.write (pageSelect a) Config.preselFill))) ∧
      (∀ e rest, s.answers = .err e :: rest → ∃ (rx : Vector Byte 127) (k : Nat),
        exec (.readArray a n) s = .next
          ((({ s with rxBuf := rx, freeCtr := k } : State).exchanged [presel a (.err e)] rest).endWith
            (failed .transportError (some e)))) ∧
      (∀ r0, s.answers = [.ok r0] → exec (.readArray a n) s = .next
        ((s.exchanged [presel a (.ok [])] []).waitingFor .dummy (.writeRead s.devAddr [inPageOffset a] 1))) ∧
      (∀ r0 e rest, s.answers = .ok r0 :: .err e :: rest → ∃ (rx : Vector Byte 127) (x : Byte) (k : Nat),
        exec (.readArray a n) s = .next
          ((({ s with dummy := x, rxBuf := rx, freeCtr := k } : State).exchanged
            [presel a (.ok []), ⟨.writeRead s.devAddr [inPageOffset a] 1, .err e⟩] rest).endWith
              (failed .transportError (some e)))) ∧
      (∀ r0 r1, s.answers = [.ok r0, .ok r1] → exec (.readArray a n) s = .next
        ((({ s with dummy := r1[0] } : State).exchanged
          [presel a (.ok []), ⟨.writeRead s.devAddr [inPageOffset a] 1, .ok [r1[0]]⟩] []).waitingFor .xfer
            (.writeRead s.devAddr [inPageOffset a] n.toNat))) ∧
      (∀ r0 r1 e rest, s.answers = .ok r0 :: .ok r1 :: .err e :: rest → ∃ (rx : Vector Byte 127) (k : Nat),
        exec (.readArray a n) s = .next
          ((({ s with dummy := r1[0], rxBuf := rx, freeCtr := k } : State).exchanged
            [presel a (.ok []), ⟨.writeRead s.devAddr [inPageOffset a] 1, .ok [r1[0]]⟩,
              ⟨.writeRead s.devAddr [inPageOffset a] n.toNat, .err e⟩] rest).endWith
              (failed .transportError (some e)))) ∧
      (∀ r0 r1 r2 rest, s.answers = .ok r0 :: .ok r1 :: .ok r2 :: rest → ∃ rx : Vector Byte 127,
        rx.toList = r2.toList.take n.toNat ++ s.rxBuf.toList.drop n.toNat ∧
        exec (.readArray a n) s = .next
          ((({ s with dummy := r1[0], rxBuf := rx, lastR := a.extractLsb' 0 9 } : State).exchanged
            [presel a (.ok []), ⟨.writeRead s.devAddr [inPageOffset a] 1, .ok [r1[0]]⟩,
              ⟨.writeRead s.devAddr [inPageOffset a] n.toNat, .ok (r2.toList.take n.toNat)⟩] rest).endWith
              (succeeded 0#32 (r2.toList.take n.toNat)))))

/-- R156, every path of WRITE_ARRAY: the length is refused at once above 16, and otherwise only after the pre-write. -/
def Obligations.WriteArrayFollowsItsRule : Prop :=
  ∀ (a n : Word) (p : Vector Byte 16) (s : State), s.seq = .idle →
    (s.bound = false → exec (.writeArray a n p) s = .next (s.endWith (failed .illegalCommand none))) ∧
    (s.bound = true → 16 < n.toNat →
      exec (.writeArray a n p) s = .next (s.endWith (failed .payloadTooLarge none))) ∧
    (s.bound = true → n.toNat ≤ 16 → 512 ≤ a.toNat →
      exec (.writeArray a n p) s = .next (s.endWith (failed .addressOutOfRange none))) ∧
    (s.bound = true → n.toNat ≤ 16 → a.toNat < 512 → ¬ windowPasses a n →
      exec (.writeArray a n p) s = .next (s.endWith (failed .pageWriteWindowOverflow none))) ∧
    (s.bound = true → n.toNat ≤ 16 → a.toNat < 512 → windowPasses a n →
      (s.answers = [] →
        exec (.writeArray a n p) s = .next (s.waitingFor .presel (.write (pageSelect a) Config.preselFill))) ∧
      (∀ e rest, s.answers = .err e :: rest →
        exec (.writeArray a n p) s = .next
          ((s.exchanged [presel a (.err e)] rest).endWith (failed .transportError (some e)))) ∧
      (∀ r0 rest, s.answers = .ok r0 :: rest → n.toNat ∉ [2, 4, 8, 16] →
        exec (.writeArray a n p) s = .next
          ((s.exchanged [presel a (.ok [])] rest).endWith (failed .invalidPayloadMultiple none))) ∧
      (∀ r0 rest, s.answers = .ok r0 :: rest → n.toNat ∈ [2, 4, 8, 16] → ∃ tx : Vector Byte 17,
        tx.toList = inPageOffset a :: p.toList.take n.toNat ++ s.txBuf.toList.drop (n.toNat + 1) ∧
        (rest = [] → exec (.writeArray a n p) s = .next
          ((({ s with txBuf := tx } : State).exchanged [presel a (.ok [])] []).waitingFor .xfer
            (.write s.devAddr (inPageOffset a :: p.toList.take n.toNat)))) ∧
        (∀ e rest', rest = .err e :: rest' → exec (.writeArray a n p) s = .next
          ((({ s with txBuf := tx } : State).exchanged
            [presel a (.ok []), ⟨.write s.devAddr (inPageOffset a :: p.toList.take n.toNat), .err e⟩] rest').endWith
              (failed .transportError (some e)))) ∧
        (∀ r1 rest', rest = .ok r1 :: rest' → exec (.writeArray a n p) s = .next
          ((({ s with txBuf := tx, lastW := a.extractLsb' 0 9 } : State).exchanged
            [presel a (.ok []), ⟨.write s.devAddr (inPageOffset a :: p.toList.take n.toNat), .ok []⟩] rest').endWith
              (succeeded 0#32 [])))))

/-- R151: the first exchange of a data command is the pre-write of its page, every later one goes to DEVADDR, and a command
whose checks pass issues it. -/
def Obligations.DataCommandsSelectThePageFirst : Prop :=
  ∀ (i : Instr) (a : Word) (s t : State), dataAddress i = some a → s.seq = .idle → s.bus = none →
    exec i s = .next t →
    (issued s t = [] ∨ ∃ rest : List Exchange,
      issued s t = .write (if a.toNat < 256 then Config.pageFn else Config.pageFn ||| 1#7) Config.preselFill :: rest ∧
      ∀ x ∈ rest, x.busAddr = s.devAddr) ∧
    (s.bound = true → checksPass i → issued s t ≠ [])

/-- R97: a command issues the exchanges of the table, in order, and all of them when it succeeds. -/
def Obligations.ExchangesFollowTheTable : Prop :=
  ∀ (i : Instr) (s t : State), s.seq = .idle → s.bus = none → exec i s = .next t →
    issued s t <+: exchangesOf s.devAddr i ∧
    (∀ r, t.responses = s.responses ++ [r] → r.status = .ok → issued s t = exchangesOf s.devAddr i) ∧
    Config.preselFill.length = 2

/-- R59 and its reason: an array command issues an exchange only where the window passes, and then every byte it covers lies
in the quadrant of its first. -/
def Obligations.ArrayAccessesStayInTheirQuadrant : Prop :=
  ∀ (i : Instr) (a n : Word) (s t : State), (i = .readArray a n ∨ ∃ p, i = .writeArray a n p) →
    s.seq = .idle → s.bus = none → exec i s = .next t → issued s t ≠ [] →
    windowPasses a n ∧ ∀ k < n.toNat, (a.toNat + k) / 128 = a.toNat / 128

/-! ### Responses and errors -/

/-- R89: from IDLE a command ends with exactly one response, in R89's format, or waits for the transport with none. -/
def Obligations.EveryCommandEndsWithOneResponseOrWaits : Prop :=
  ∀ (i : Instr) (s t : State), s.seq = .idle → exec i s = .next t →
    (t.seq = .idle ∧ ∃ r, t.responses = s.responses ++ [r] ∧ r.wellFormed) ∨
    (t.seq.waiting = true ∧ t.responses = s.responses ∧ t.answers = [] ∧ t.bus.isSome = true)

/-- R157's consequence: from IDLE every command answers a next state, so no data command meets AddressConversionFailure. -/
def Obligations.EveryCommandRunsFromIdle : Prop :=
  ∀ (i : Instr) (s : State), s.seq = .idle → ∃ t, exec i s = .next t

/-- R159: from any state, run from IDLE or going on from where a command waited, a failed exchange is the last of its command and
its error value is returned unchanged; and a command that waits when the Err comes, the ordinary case (R152), ends so. -/
def Obligations.AFailedExchangeEndsTheCommand : Prop :=
  (∀ (i : Instr) (s t : State), exec i s = .next t → ∀ x e, ⟨x, .err e⟩ ∈ settled s t →
      (∃ before, settled s t = before ++ [⟨x, .err e⟩] ∧ ∀ y ∈ before, ∃ r, y.ending = .ok r) ∧
      t.bus = none ∧ t.seq = .idle ∧ t.responses = s.responses ++ [failed .transportError (some e)]) ∧
  (∀ (s : State) (e : TErr) (rest : List Answer), Consistent s → s.seq.waiting = true → s.answers = .err e :: rest →
    ∃ (x : Exchange) (t : State), s.bus = some x ∧ exec (decode s.cmd) s = .next t ∧
      t.trace = s.trace ++ [⟨x, .err e⟩] ∧ t.bus = none ∧ t.answers = rest ∧ t.seq = .idle ∧
      t.responses = s.responses ++ [failed .transportError (some e)])

/-- R158: the bookkeeping registers are written only in DONE of a command whose status is OK, with the command's address (0 by
CONSTRUCT, R200); a transport failure at any step leaves them, from any state; and so it does where a command waits when the
Err comes. -/
def Obligations.BookkeepingIsWrittenOnlyOnSuccess : Prop :=
  (∀ (i : Instr) (s t : State), moveOf i s = .next t → t.lastW ≠ s.lastW ∨ t.lastR ≠ s.lastR →
    s.seq = .done ∧ ∃ r, s.pending = some r ∧ r.status = .ok ∧
      ((∃ a d, i = .writeByte a d ∧ t.lastW = a.extractLsb' 0 9 ∧ t.lastR = s.lastR) ∨
       (∃ a n p, i = .writeArray a n p ∧ t.lastW = a.extractLsb' 0 9 ∧ t.lastR = s.lastR) ∨
       (∃ a, i = .readByte a ∧ t.lastR = a.extractLsb' 0 9 ∧ t.lastW = s.lastW) ∨
       (∃ a n, i = .readArray a n ∧ t.lastR = a.extractLsb' 0 9 ∧ t.lastW = s.lastW) ∨
       (∃ a2 a1 a0, i = .construct a2 a1 a0 ∧ t.lastW = 0#9 ∧ t.lastR = 0#9))) ∧
  (∀ (i : Instr) (s t : State), exec i s = .next t → ∀ x e, ⟨x, .err e⟩ ∈ settled s t →
    t.lastW = s.lastW ∧ t.lastR = s.lastR ∧ t.responses = s.responses ++ [failed .transportError (some e)]) ∧
  (∀ (s : State) (e : TErr) (rest : List Answer), Consistent s → s.seq.waiting = true → s.answers = .err e :: rest →
    ∃ t : State, exec (decode s.cmd) s = .next t ∧ t.lastW = s.lastW ∧ t.lastR = s.lastR ∧ t.bound = s.bound ∧
      t.devAddr = s.devAddr ∧ t.responses = s.responses ++ [failed .transportError (some e)])

/-- R235 and R236: after any error the core is idle with the handle registers as before. -/
def Obligations.AnErrorLeavesTheHandleRegisters : Prop :=
  ∀ (i : Instr) (s t : State) (r : Response), s.seq = .idle → exec i s = .next t →
    t.responses = s.responses ++ [r] → r.status ≠ .ok →
    t.seq = .idle ∧ t.bound = s.bound ∧ t.devAddr = s.devAddr ∧ t.lastW = s.lastW ∧ t.lastR = s.lastR

/-- 60_exceptions.md section 1: the transport's error values are neither read nor changed. Changing them all in the inputs and
the past changes them alike in the outcome and nothing else. -/
def Obligations.TransportErrorsAreOpaque : Prop :=
  ∀ (f : TErr → TErr) (i : Instr) (s : State), exec i (s.mapErr f) = mapNext (State.mapErr f) (exec i s)

/-! ### Frames -/

/-- 10_state.md section 6, from any state: which registers each command may change, and that the command latch, the host's
list and an asserted reset are no command's to change. What is already in the trace and among the responses stays (R16). -/
def Obligations.CommandsWriteOnlyTheirRegisters : Prop :=
  ∀ (i : Instr) (s t : State), exec i s = .next t →
    (t.cmd = s.cmd ∧ t.host = s.host ∧ t.resetIn = s.resetIn) ∧ (s.trace <+: t.trace ∧ s.responses <+: t.responses) ∧
    ((∀ a2 a1 a0, i ≠ .construct a2 a1 a0) → i ≠ .release → t.bound = s.bound) ∧
    ((∀ a2 a1 a0, i ≠ .construct a2 a1 a0) → t.devAddr = s.devAddr) ∧
    ((∀ a2 a1 a0, i ≠ .construct a2 a1 a0) → (∀ a d, i ≠ .writeByte a d) → (∀ a n p, i ≠ .writeArray a n p) →
      t.lastW = s.lastW) ∧
    ((∀ a2 a1 a0, i ≠ .construct a2 a1 a0) → (∀ a, i ≠ .readByte a) → (∀ a n, i ≠ .readArray a n) →
      t.lastR = s.lastR) ∧
    ((∀ a d, i ≠ .writeByte a d) → (∀ a n p, i ≠ .writeArray a n p) → t.txBuf = s.txBuf) ∧
    ((∀ a, i ≠ .readByte a) → (∀ a n, i ≠ .readArray a n) → t.rxBuf = s.rxBuf ∧ t.freeCtr = s.freeCtr) ∧
    ((∀ a n, i ≠ .readArray a n) → t.dummy = s.dummy) ∧
    (dataAddress i = none → t.trace = s.trace ∧ t.answers = s.answers ∧ t.bus = s.bus)

/-- 10_state.md section 5: no exchange is issued while BOUND = 0. -/
def Obligations.NoExchangeWithoutAHandle : Prop :=
  ∀ (i : Instr) (s t : State), s.seq = .idle → s.bound = false → exec i s = .next t →
    t.trace = s.trace ∧ t.bus = s.bus ∧ t.answers = s.answers

/-- R64: repeating a READ_BYTE that succeeds issues the same exchanges and leaves every handle register as it is. -/
def Obligations.RepeatedReadByteChangesNothingMore : Prop :=
  ∀ (a : Word) (s t u : State) (r q : Response), s.seq = .idle → s.bus = none →
    exec (.readByte a) s = .next t → t.responses = s.responses ++ [r] → r.status = .ok →
    exec (.readByte a) t = .next u → u.responses = t.responses ++ [q] → q.status = .ok →
    issued t u = issued s t ∧ t.lastR = a.extractLsb' 0 9 ∧ u.lastR = t.lastR ∧
    t.bound = s.bound ∧ t.devAddr = s.devAddr ∧ t.lastW = s.lastW ∧
    u.bound = t.bound ∧ u.devAddr = t.devAddr ∧ u.lastW = t.lastW

/-! ### The sequencer and a step -/

/-- R29 and R150, move by move. The first clause: from IDLE a command goes to CHECK. The second: a move changes nothing, in IDLE
or without an answer; or goes to the next state of the command's path, out of a waiting state only by taking an Ok answer,
into one only with an exchange issued, into DONE only with the response of a success; or delivers the pending response in DONE
and goes to IDLE; or goes to DONE with an error's response, out of a waiting state only by taking an Err. -/
def Obligations.SequencerMovesAlongThePath : Prop :=
  (∀ (i : Instr) (s : State), s.seq = .idle → exec i s = exec i { s with seq := .check }) ∧
  (∀ (i : Instr) (s t : State), moveOf i s = .next t →
    (t = s ∧ (s.seq = .idle ∨ (s.seq.waiting = true ∧ s.answers = []))) ∨
    ((∃ before after, pathOf i = before ++ s.seq :: t.seq :: after) ∧ t.responses = s.responses ∧
      (if s.seq.waiting then ∃ rx, s.answers = .ok rx :: t.answers else t.answers = s.answers) ∧
      (t.seq.waiting = true → t.bus.isSome = true) ∧
      (t.seq = .done → ∃ r, t.pending = some r ∧ r.status = .ok)) ∨
    (s.seq = .done ∧ t.seq = .idle ∧ t.answers = s.answers ∧
      ∃ r, s.pending = some r ∧ t.responses = s.responses ++ [r]) ∨
    (s.seq ≠ .done ∧ t.seq = .done ∧ t.responses = s.responses ∧ ∃ r, t.pending = some r ∧ r.status ≠ .ok ∧
      (if s.seq.waiting then ∃ e, s.answers = .err e :: t.answers ∧ r = failed .transportError (some e)
        else t.answers = s.answers)))

/-- R28, R80, R243: in IDLE a step latches the host's next descriptor and runs the command it decodes to; otherwise the latched
command goes on; with no command nothing happens. -/
def Obligations.AStepRunsTheDecodedCommand : Prop :=
  ∀ s : State, s.resetIn = none →
    (∀ d rest, s.seq = .idle → s.host = d :: rest → step s = exec (decode d) { s with cmd := d, host := rest }) ∧
    (s.seq = .idle → s.host = [] → step s = .next s) ∧
    (s.seq ≠ .idle → step s = exec (decode s.cmd) s)

/-- What withFetchWord is for: the next step runs the command of the word it places. How a program comes to be placed (log entry
10) and how a descriptor is one number (log entry 12) are the model's choices; no rule of the spec gives either. -/
def Obligations.APlacedWordRunsNext : Prop :=
  ∀ (s : State) (nbits w : Nat),
    decodeTableWord nbits w = some (decode (Descriptor.ofTableWord nbits w)) ∧
    step (s.withFetchWord nbits w) = exec (decode (Descriptor.ofTableWord nbits w))
      { s with seq := .idle, resetIn := none, cmd := Descriptor.ofTableWord nbits w }

/-- 41_sequencer.md section 1: without an answer the core waits for ever. -/
def Obligations.WithoutAnAnswerTheCoreWaits : Prop :=
  ∀ s : State, Consistent s → s.seq.waiting = true → s.answers = [] → s.resetIn = none →
    ∀ k : Nat, Host.Core.run core k s = .next s

/-- R62, R152: how a command waits is not seen in its outcome. Answers that come after it has waited do what the same answers
would have done laid ready from the start, so what the data commands' rules say of answers laid ready holds of answers that come
in later steps. -/
def Obligations.AWaitingCommandGoesOn : Prop :=
  ∀ (i : Instr) (s t : State) (l : List Answer), exec i s = .next t → t.seq.waiting = true →
    exec i { t with answers := l } = exec i { s with answers := s.answers ++ l }

/-- R28, R68: while a command is in flight the host's list has no effect on what a step does. -/
def Obligations.TheCommandInFlightIgnoresTheHost : Prop :=
  ∀ (s : State) (later : List Descriptor), s.seq ≠ .idle → s.resetIn = none →
    step { s with host := later } = mapNext (fun t => { t with host := later }) (step s)

/-! ### Reset -/

/-- R260: after reset there is no handle and the sequencer is idle, so every data command is refused until CONSTRUCT. The
other registers' reset values are the model's own (log entry 1) and nothing is said of them. -/
def Obligations.ResetLeavesNoHandle : Prop :=
  State.reset.bound = false ∧ State.reset.seq = .idle ∧
  (∀ i, dataAddress i ≠ none → exec i State.reset = .next (State.reset.endWith (failed .illegalCommand none))) ∧
  (∀ a2 a1 a0, ∃ t, exec (.construct a2 a1 a0) State.reset = .next t ∧ t.bound = true)

/-- R261: a reset after any number of moves ends the command that is in flight then with no response and no bookkeeping write;
exchanges already ended stay in the trace; one in progress is recorded with either fate. When the reset strikes and the fate
are inputs, a choice of the model's (log entry 7); that LASTW and LASTR keep their bits also where no command is in flight, where
R260 leaves them unspecified, is another (log entry 6). -/
def Obligations.ResetEndsTheCommandInFlight : Prop :=
  ∀ (s u : State) (k : Nat) (fate : ResetFate), s.resetIn = some ⟨k, fate⟩ → advance k s = .next u →
    ∃ t, step s = .next t ∧ t.bound = false ∧ t.seq = .idle ∧ t.responses = u.responses ∧
      t.lastW = u.lastW ∧ t.lastR = u.lastR ∧ t.bus = none ∧ t.pending = none ∧ t.resetIn = none ∧
      (u.bus = none → t.trace = u.trace) ∧
      (∀ x, u.bus = some x → t.trace = u.trace ++ [⟨x, .cut fate⟩]) ∧
      (u.seq ≠ .idle → t.responses = s.responses ∧ t.lastW = s.lastW ∧ t.lastR = s.lastR ∧ s.trace <+: t.trace)

/-! ### Invariants -/

/-- The invariant holds at reset. -/
def Obligations.ResetIsConsistent : Prop := Consistent State.reset

/-- Every step, whatever the host, the transport and a reset do, keeps the invariant: SEQ on its command's path, the
outstanding exchange R97's, no exchange without a handle, DEVADDR in form, responses and trace in form. -/
def Obligations.EveryStepKeepsConsistency : Prop :=
  ∀ s t : State, Consistent s → step s = .next t → Consistent t

/-- From a consistent state no run faults or refuses: the model has no stop that a machine can reach. -/
def Obligations.ConsistentRunsNeverStop : Prop := ∀ s : State, Consistent s → SafeRun s

/-! ### With the reference device (92_eei_decisions.md D28, the spec's test harness) -/

/-- The device's memory keeps its canonical form, whatever the core does. -/
def Obligations.DeviceMemoryStaysCanonical : Prop :=
  ∀ b c : Bench, b.dev.mem.wf → b.step = .next c → c.dev.mem.wf

/-- 95_test_vectors.md W9, on D28's device at a bus address that is no page select: a byte written is read back, both
bookkeeping addresses are its address, and no other byte of the device changes. It rests on the model's constraint that the two
page-select addresses differ (log entry 2) and on its device (log entry 16). -/
def Obligations.AWrittenByteReadsBack : Prop :=
  ∀ (b : Bench) (a : Word) (d : Byte) (rest : List Descriptor),
    b.core.seq = .idle → b.core.bound = true → b.core.bus = none → b.core.answers = [] → b.core.resetIn = none →
    b.dev.mem.wf → b.dev.addr = b.core.devAddr → b.dev.addr ≠ Config.pageFn → b.dev.addr ≠ Config.pageFn ||| 1#7 →
    b.core.host = encode (.writeByte a d) :: encode (.readByte a) :: encode .prevWriteAddr ::
      encode .prevReadAddr :: rest →
    a.toNat < 512 →
    ∃ c, b.run 8 = .next c ∧ c.core.host = rest ∧
      c.core.responses = b.core.responses ++
        [succeeded 0#32 [], succeeded (d.setWidth 32) [d], succeeded a [], succeeded a []] ∧
      ∀ x, readMem c.dev.mem x = if x = a.toNat then d else readMem b.dev.mem x

/-- The same for arrays: a payload written inside the window is read back byte for byte, and no other byte changes. It rests on
log entries 2 and 16 as well. -/
def Obligations.AWrittenArrayReadsBack : Prop :=
  ∀ (b : Bench) (a n : Word) (p : Vector Byte 16) (rest : List Descriptor),
    b.core.seq = .idle → b.core.bound = true → b.core.bus = none → b.core.answers = [] → b.core.resetIn = none →
    b.dev.mem.wf → b.dev.addr = b.core.devAddr → b.dev.addr ≠ Config.pageFn → b.dev.addr ≠ Config.pageFn ||| 1#7 →
    b.core.host = encode (.writeArray a n p) :: encode (.readArray a n) :: rest →
    a.toNat < 512 → n.toNat ∈ [2, 4, 8, 16] → windowPasses a n →
    ∃ c, b.run 7 = .next c ∧ c.core.host = rest ∧
      c.core.responses = b.core.responses ++ [succeeded 0#32 [], succeeded 0#32 (p.toList.take n.toNat)] ∧
      ∀ x, readMem c.dev.mem x =
        if a.toNat ≤ x ∧ x < a.toNat + n.toNat then p.toList.getD (x - a.toNat) 0#8 else readMem b.dev.mem x

/-- R56: the i-th byte received is RXBUF[i] and RDATA[i], and with D28's device it is the byte at offset + i of the selected
page, which is linear address a + i. It rests on log entries 2 and 16. -/
def Obligations.ReadArrayReturnsTheDevicesBytes : Prop :=
  ∀ (b : Bench) (a n : Word) (rest : List Descriptor),
    b.core.seq = .idle → b.core.bound = true → b.core.bus = none → b.core.answers = [] → b.core.resetIn = none →
    b.dev.addr = b.core.devAddr → b.dev.addr ≠ Config.pageFn → b.dev.addr ≠ Config.pageFn ||| 1#7 →
    b.core.host = encode (.readArray a n) :: rest → a.toNat < 512 → windowPasses a n →
    ∃ c, b.run 4 = .next c ∧ c.core.host = rest ∧
      c.core.responses = b.core.responses ++
        [succeeded 0#32 ((List.range n.toNat).map fun k => readMem b.dev.mem (a.toNat + k))] ∧
      c.core.rxBuf.toList.take n.toNat = (List.range n.toNat).map fun k => readMem b.dev.mem (a.toNat + k)

/-! ### Codes -/

/-- R90's status numbers (8 to 15 are never produced), R29's state numbers (7 is never entered), and R95's bus address as a
byte with bit 7 = 0. -/
def Obligations.CodesAreTheSpecs : Prop :=
  ([Status.ok, .transportError, .addressOutOfRange, .addressConversionFailure, .pageWriteWindowOverflow,
    .payloadTooLarge, .invalidPayloadMultiple, .illegalCommand].map Status.code =
      [0#4, 1#4, 2#4, 3#4, 4#4, 5#4, 6#4, 7#4]) ∧
  ([Seq.idle, .check, .presel, .dummy, .mult, .xfer, .done].map Seq.code =
      [0#3, 1#3, 2#3, 3#3, 4#3, 5#3, 6#3]) ∧
  (∀ st : Status, st.code.toNat < 8) ∧ (∀ q : Seq, q.code.toNat < 7) ∧
  (∀ ba : BusAddr, (busAddressByte ba).getLsbD 7 = false ∧ (busAddressByte ba).toNat = ba.toNat)
end

