-- ==== Sys2Proof/Laws/Memory.lean ====
section
/-! SUPPORT. The reference device's memory: a read after a write, and that every memory operation keeps the canonical form. -/

namespace Sys2Proof.Machine

/-- Below every entry nothing is listed. -/
theorem readMem_of_below {m : Memory} {a : Nat} (h : ∀ c ∈ m, a < c.1) : readMem m a = erased := by
  induction m with
  | nil => rfl
  | cons c m ih =>
    have hc : a < c.1 := h c (by simp)
    rw [readMem, if_neg (by omega)]
    exact ih fun d hd => h d (by simp [hd])

theorem readMem_cellFor_append (a : Nat) (b : Byte) {m : Memory} (h : ∀ c ∈ m, a < c.1) (x : Nat) :
    readMem (cellFor a b ++ m) x = if x = a then b else readMem m x := by
  unfold cellFor
  by_cases hb : b = erased
  · by_cases hx : x = a
    · simp [hb, hx, readMem_of_below h]
    · simp [hb, hx]
  · simp [hb, readMem]

/-- A read after a write: the byte written at its address, every other byte as before. -/
theorem readMem_writeMem {m : Memory} (hm : m.Pairwise fun c d => c.1 < d.1) (a : Nat) (b : Byte) (x : Nat) :
    readMem (writeMem m a b) x = if x = a then b else readMem m x := by
  induction m with
  | nil =>
    have := readMem_cellFor_append a b (m := []) (by simp) x
    simpa [writeMem] using this
  | cons c m ih =>
    obtain ⟨k, v⟩ := c
    rw [List.pairwise_cons] at hm
    simp only [writeMem]
    by_cases h1 : a < k
    · rw [if_pos h1]
      refine readMem_cellFor_append a b (fun c hc => ?_) x
      rcases List.mem_cons.1 hc with rfl | hc
      · exact h1
      · exact Nat.lt_trans h1 (hm.1 c hc)
    · rw [if_neg h1]
      by_cases h2 : a = k
      · rw [if_pos h2, readMem_cellFor_append a b (fun c hc => h2 ▸ hm.1 c hc) x]
        by_cases hx : x = a
        · simp [hx]
        · simp [hx, readMem, ← h2]
      · rw [if_neg h2, readMem, ih hm.2, readMem]
        by_cases hx : x = k
        · have : x ≠ a := fun h => h2 (h ▸ hx)
          rw [if_pos hx, if_neg this, if_pos hx]
        · simp [hx]

/-- Every address a write lists was listed before or is the one written. -/
theorem mem_writeMem {m : Memory} {a : Nat} {b : Byte} {c : Host.Cell} (h : c ∈ writeMem m a b) :
    c ∈ m ∨ (c = (a, b) ∧ b ≠ erased) := by
  have hcell : c ∈ cellFor a b → c = (a, b) ∧ b ≠ erased := by
    unfold cellFor
    split
    · simp
    · intro hc; exact ⟨by simpa using hc, by assumption⟩
  induction m with
  | nil => exact .inr (hcell h)
  | cons d m ih =>
    obtain ⟨k, v⟩ := d
    simp only [writeMem] at h
    split at h
    · rcases List.mem_append.1 h with h | h
      · exact .inr (hcell h)
      · exact .inl h
    · split at h
      · rcases List.mem_append.1 h with h | h
        · exact .inr (hcell h)
        · exact .inl (by simp [h])
      · rcases List.mem_cons.1 h with rfl | h
        · exact .inl (by simp)
        · rcases ih h with h | h
          · exact .inl (by simp [h])
          · exact .inr h

theorem pairwise_cellFor_append {a : Nat} {b : Byte} {m : Memory} (hm : m.Pairwise fun c d => c.1 < d.1)
    (h : ∀ c ∈ m, a < c.1) : (cellFor a b ++ m).Pairwise fun c d => c.1 < d.1 := by
  unfold cellFor
  split
  · simpa using hm
  · simpa [hm] using fun c d => h (c, d)

/-- A write keeps the canonical form. -/
theorem writeMem_wf {m : Memory} (hm : m.wf) {a : Nat} (ha : a < 512) (b : Byte) : (writeMem m a b).wf := by
  refine ⟨?_, fun c hc => ?_⟩
  · have hp := hm.1
    clear hm
    induction m with
    | nil =>
      have := pairwise_cellFor_append (a := a) (b := b) (m := []) (by simp) (by simp)
      simpa [writeMem] using this
    | cons d m ih =>
      obtain ⟨k, v⟩ := d
      have hp' := hp
      rw [List.pairwise_cons] at hp
      simp only [writeMem]
      split
      · refine pairwise_cellFor_append hp' fun c hc => ?_
        rcases List.mem_cons.1 hc with rfl | hc
        · assumption
        · exact Nat.lt_trans (by assumption) (hp.1 c hc)
      · split
        · next h => exact pairwise_cellFor_append hp.2 fun c hc => h ▸ hp.1 c hc
        · refine List.pairwise_cons.2 ⟨fun c hc => ?_, ih hp.2⟩
          rcases mem_writeMem hc with hc | ⟨rfl, _⟩
          · exact hp.1 c hc
          · show k < a
            omega
  · rcases mem_writeMem hc with hc | ⟨rfl, hb⟩
    · exact hm.2 c hc
    · exact ⟨ha, hb⟩

/-- A run of writes inside the space keeps the canonical form. -/
theorem writeBytes_wf {l : List Byte} {m : Memory} (hm : m.wf) {a : Nat} (ha : a + l.length ≤ 512) :
    (writeBytes m a l).wf := by
  induction l generalizing m a with
  | nil => exact hm
  | cons b l ih =>
    simp only [List.length_cons] at ha
    exact ih (writeMem_wf hm (by omega) b) (by omega)

/-- A read after a run of writes: the byte written where one was, every other byte as before. -/
theorem readMem_writeBytes {l : List Byte} {m : Memory} (hm : m.wf) {a : Nat} (ha : a + l.length ≤ 512) (x : Nat) :
    readMem (writeBytes m a l) x = if a ≤ x ∧ x < a + l.length then (l[x - a]?).getD 0#8 else readMem m x := by
  induction l generalizing m a with
  | nil =>
    rw [writeBytes, if_neg]
    simp only [List.length_nil]
    omega
  | cons b l ih =>
    simp only [List.length_cons] at ha
    rw [writeBytes, ih (writeMem_wf hm (by omega) b) (by omega), readMem_writeMem hm.1]
    by_cases h1 : x = a
    · subst h1
      simp
    · by_cases h2 : a + 1 ≤ x ∧ x < a + 1 + l.length
      · have h3 : a ≤ x ∧ x < a + (b :: l).length := by simp only [List.length_cons]; omega
        have h4 : x - a = (x - (a + 1)) + 1 := by omega
        rw [if_pos h2, if_pos h3, h4, List.getElem?_cons_succ]
      · have h3 : ¬ (a ≤ x ∧ x < a + (b :: l).length) := by simp only [List.length_cons]; omega
        rw [if_neg h2, if_neg h3, if_neg h1]

/-- The reference device keeps its memory in canonical form, whatever exchange it is given. -/
theorem RefDevice.after_wf {v : RefDevice} (hm : v.mem.wf) (x : Exchange) : (v.after x).mem.wf := by
  cases x with
  | writeRead ba w n => exact hm
  | write ba bytes =>
    unfold RefDevice.after
    simp only
    split
    · exact hm
    split
    · exact hm
    split
    · cases bytes with
      | nil => exact hm
      | cons off data =>
        refine writeBytes_wf hm ?_
        have h1 : v.base ≤ 256 := by unfold RefDevice.base; split <;> omega
        have h2 := off.isLt
        simp only [List.length_take]
        omega
    · exact hm

end Sys2Proof.Machine
end

