-- ==== Sys2Proof/Laws/Operands.lean ====
section
/-! SUPPORT. What the translator, the operand assembly and the buffers' byte sequences compute: the lemmas that callers cite
instead of unfolding them. -/

namespace Sys2Proof.Machine

/-! ### The parameters' constraints (R8) -/

/-- `PAGE_FN[0] = 0`. -/
theorem pageFn_bit0 : Config.pageFn.getLsbD 0 = false := by
  show (Config.pageFnHi ++ 0#1).getLsbD 0 = false
  rw [BitVec.getLsbD_append]
  simp

/-- `RW_FN[2:0] = 0`. -/
theorem rwFn_low {k : Nat} (h : k < 3) : Config.rwFn.getLsbD k = false := by
  show (Config.rwFnHi ++ 0#3).getLsbD k = false
  rw [BitVec.getLsbD_append, if_pos h]
  simp

/-- The two page-select addresses differ (92 D8). -/
theorem pageFn_or_one_ne : Config.pageFn ||| 1#7 ≠ Config.pageFn := by
  intro h
  have := congrArg (fun v => v.getLsbD 0) h
  rw [BitVec.getLsbD_or, pageFn_bit0] at this
  exact absurd this (by decide)

/-! ### Bounds and conversion -/

theorem validateBounds_ok {a : Word} (h : a.toNat < 512) : validateBounds a = .ok () := by
  simp [validateBounds, h]

theorem validateBounds_error {a : Word} (h : 512 ≤ a.toNat) :
    validateBounds a = .error .addressOutOfRange := by
  simp [validateBounds, h]

/-- Below 256 the page-select bit is clear. -/
theorem pageSelect_low {a : Word} (h : a.toNat < 256) : pageSelect a = Config.pageFn := by
  have hb : a.extractLsb' 8 1 = 0#1 := by
    apply BitVec.eq_of_toNat_eq
    simp [Nat.shiftRight_eq_div_pow]
    omega
  simp [pageSelect, hb]

/-- From 256 to 511 the page-select bit is set. -/
theorem pageSelect_high {a : Word} (h : 256 ≤ a.toNat) (h' : a.toNat < 512) :
    pageSelect a = Config.pageFn ||| 1#7 := by
  have hb : a.extractLsb' 8 1 = 1#1 := by
    apply BitVec.eq_of_toNat_eq
    simp [Nat.shiftRight_eq_div_pow]
    omega
  simp [pageSelect, hb]

/-- The conversion of every address in range (R122, last sentence). -/
theorem convert_ok {a : Word} (h : a.toNat < 512) : convert a = .ok (pageSelect a, inPageOffset a) := by
  unfold convert
  split
  · rw [pageSelect_low (by omega)]; rfl
  split
  · rw [pageSelect_low (by omega)]; rfl
  split
  · rw [pageSelect_high (by omega) h]; rfl
  split
  · rw [pageSelect_high (by omega) h]; rfl
  · omega

/-- Every address out of range fails conversion (R123). -/
theorem convert_error {a : Word} (h : 512 ≤ a.toNat) :
    convert a = .error .addressConversionFailure := by
  unfold convert
  repeat (first | rw [if_neg (by omega)])

/-! ### The window -/

theorem validateWindow_ok {a n : Word} (h : a.toNat < 512)
    (hw : (inPageOffset a).toNat + n.toNat ≤ windowMax (inPageOffset a)) : validateWindow a n = .ok () := by
  simp [validateWindow, convert_ok h, hw]

theorem validateWindow_overflow {a n : Word} (h : a.toNat < 512)
    (hw : windowMax (inPageOffset a) < (inPageOffset a).toNat + n.toNat) :
    validateWindow a n = .error .pageWriteWindowOverflow := by
  simp [validateWindow, convert_ok h, hw]

theorem validateWindow_error {a n : Word} (h : 512 ≤ a.toNat) :
    validateWindow a n = .error .addressConversionFailure := by
  simp [validateWindow, convert_error h]

/-- off(a) is a mod 256 (R94). -/
theorem inPageOffset_toNat (a : Word) : (inPageOffset a).toNat = a.toNat % 256 := by
  simp [inPageOffset]

/-- The window maximum by the half of the page (R125). -/
theorem windowMax_eq (off : Byte) : windowMax off = if off.toNat < 128 then 0x7F else 0xFF := by
  have h : off.getLsbD 7 = decide (128 ≤ off.toNat) := by
    simp only [← BitVec.msb_eq_getLsbD_last off, BitVec.msb_eq_decide]
  unfold windowMax
  rw [h]
  by_cases h' : off.toNat < 128
  · rw [if_pos h', if_neg (by simp; omega)]
  · rw [if_neg h', if_pos (by simp; omega)]

theorem windowMax_le (off : Byte) : windowMax off ≤ 255 := by
  unfold windowMax; split <;> decide

/-- A window that passes holds at most 127 bytes (R129). -/
theorem len_le_of_window {a n : Word}
    (hw : (inPageOffset a).toNat + n.toNat ≤ windowMax (inPageOffset a)) : n.toNat ≤ 127 := by
  rw [windowMax_eq] at hw
  split at hw <;> omega

/-! ### Byte sequences -/

/-- An Ok answer has exactly the number of bytes asked for (R96). -/
theorem length_received (rx : Vector Byte 127) {n : Nat} (h : n ≤ 127) : (received rx n).length = n := by
  simp [received, h]

@[simp] theorem received_zero (rx : Vector Byte 127) : received rx 0 = [] := by simp [received]

theorem received_one (rx : Vector Byte 127) : received rx 1 = [rx[0]] := by
  have h : 0 < rx.toList.length := by simp
  rw [received, List.take_one]
  simp [List.head?_eq_getElem?]

/-- Overwriting the head of a buffer, as one list. -/
theorem toList_overlay {m : Nat} (old : Vector Byte m) (l : List Byte) (h : l.length ≤ m) :
    (overlay l old).toList = l ++ old.toList.drop l.length := by
  unfold overlay
  apply List.ext_getElem
  · simp [h]
  · intro i h1 h2
    simp only [Vector.toList_ofFn, List.getElem_ofFn]
    by_cases hi : i < l.length
    · simp [List.getElem_append_left hi, hi]
    · rw [List.getElem_append_right (by omega)]
      simp [List.getElem?_eq_none (Nat.le_of_not_lt hi), Nat.add_sub_cancel' (Nat.le_of_not_lt hi)]

/-- TXBUF after a load, as one list (R153, R156). -/
theorem loadTx_txBuf_toList (off : Byte) (l : List Byte) (s : State) (h : l.length ≤ 16) :
    (loadTx off l s).txBuf.toList = off :: l ++ s.txBuf.toList.drop (l.length + 1) :=
  toList_overlay s.txBuf (off :: l) (by simp; omega)

/-- The message sent is the offset and the data (R97). -/
theorem txMessage_loadTx (off : Byte) (l : List Byte) (s : State) (h : l.length ≤ 16) :
    txMessage (l.length + 1) (loadTx off l s) = off :: l := by
  simp [txMessage, loadTx_txBuf_toList off l s h]

/-- RXBUF after a load, as one list (R154, R155). -/
theorem loadRx_rxBuf_toList (l : List Byte) (s : State) (h : l.length ≤ 127) :
    (loadRx l s).rxBuf.toList = l ++ s.rxBuf.toList.drop l.length :=
  toList_overlay s.rxBuf l h

end Sys2Proof.Machine
end

