-- ==== Sys2Proof/Laws/State.lean ====
section
/-! SUPPORT. One lemma per field per update of the state, so that no proof unfolds a record update. -/

namespace Sys2Proof.Machine

/-! ### raise -/

@[simp] theorem raise_bound (k : ErrKind) (s : State) : (raise k s).bound = s.bound := rfl
@[simp] theorem raise_devAddr (k : ErrKind) (s : State) : (raise k s).devAddr = s.devAddr := rfl
@[simp] theorem raise_lastW (k : ErrKind) (s : State) : (raise k s).lastW = s.lastW := rfl
@[simp] theorem raise_lastR (k : ErrKind) (s : State) : (raise k s).lastR = s.lastR := rfl
@[simp] theorem raise_seq (k : ErrKind) (s : State) : (raise k s).seq = .done := rfl
@[simp] theorem raise_cmd (k : ErrKind) (s : State) : (raise k s).cmd = s.cmd := rfl
@[simp] theorem raise_txBuf (k : ErrKind) (s : State) : (raise k s).txBuf = s.txBuf := rfl
@[simp] theorem raise_rxBuf (k : ErrKind) (s : State) : (raise k s).rxBuf = s.rxBuf := rfl
@[simp] theorem raise_dummy (k : ErrKind) (s : State) : (raise k s).dummy = s.dummy := rfl
@[simp] theorem raise_bus (k : ErrKind) (s : State) : (raise k s).bus = s.bus := rfl
@[simp] theorem raise_pending (k : ErrKind) (s : State) : (raise k s).pending = some (errorResponse k) := rfl
@[simp] theorem raise_host (k : ErrKind) (s : State) : (raise k s).host = s.host := rfl
@[simp] theorem raise_answers (k : ErrKind) (s : State) : (raise k s).answers = s.answers := rfl
@[simp] theorem raise_resetIn (k : ErrKind) (s : State) : (raise k s).resetIn = s.resetIn := rfl
@[simp] theorem raise_trace (k : ErrKind) (s : State) : (raise k s).trace = s.trace := rfl
@[simp] theorem raise_responses (k : ErrKind) (s : State) : (raise k s).responses = s.responses := rfl
@[simp] theorem raise_freeCtr (k : ErrKind) (s : State) : (raise k s).freeCtr = s.freeCtr := rfl

/-! ### freeRx -/

@[simp] theorem freeRx_bound (s : State) : (freeRx s).bound = s.bound := rfl
@[simp] theorem freeRx_devAddr (s : State) : (freeRx s).devAddr = s.devAddr := rfl
@[simp] theorem freeRx_lastW (s : State) : (freeRx s).lastW = s.lastW := rfl
@[simp] theorem freeRx_lastR (s : State) : (freeRx s).lastR = s.lastR := rfl
@[simp] theorem freeRx_seq (s : State) : (freeRx s).seq = s.seq := rfl
@[simp] theorem freeRx_cmd (s : State) : (freeRx s).cmd = s.cmd := rfl
@[simp] theorem freeRx_txBuf (s : State) : (freeRx s).txBuf = s.txBuf := rfl
@[simp] theorem freeRx_rxBuf (s : State) : (freeRx s).rxBuf = freeBytes s.freeCtr := rfl
@[simp] theorem freeRx_dummy (s : State) : (freeRx s).dummy = s.dummy := rfl
@[simp] theorem freeRx_bus (s : State) : (freeRx s).bus = s.bus := rfl
@[simp] theorem freeRx_pending (s : State) : (freeRx s).pending = s.pending := rfl
@[simp] theorem freeRx_host (s : State) : (freeRx s).host = s.host := rfl
@[simp] theorem freeRx_answers (s : State) : (freeRx s).answers = s.answers := rfl
@[simp] theorem freeRx_resetIn (s : State) : (freeRx s).resetIn = s.resetIn := rfl
@[simp] theorem freeRx_trace (s : State) : (freeRx s).trace = s.trace := rfl
@[simp] theorem freeRx_responses (s : State) : (freeRx s).responses = s.responses := rfl
@[simp] theorem freeRx_freeCtr (s : State) : (freeRx s).freeCtr = s.freeCtr + 127 := rfl

/-! ### raiseRead -/

@[simp] theorem raiseRead_bound (k : ErrKind) (s : State) : (raiseRead k s).bound = s.bound := rfl
@[simp] theorem raiseRead_devAddr (k : ErrKind) (s : State) : (raiseRead k s).devAddr = s.devAddr := rfl
@[simp] theorem raiseRead_lastW (k : ErrKind) (s : State) : (raiseRead k s).lastW = s.lastW := rfl
@[simp] theorem raiseRead_lastR (k : ErrKind) (s : State) : (raiseRead k s).lastR = s.lastR := rfl
@[simp] theorem raiseRead_seq (k : ErrKind) (s : State) : (raiseRead k s).seq = .done := rfl
@[simp] theorem raiseRead_cmd (k : ErrKind) (s : State) : (raiseRead k s).cmd = s.cmd := rfl
@[simp] theorem raiseRead_txBuf (k : ErrKind) (s : State) : (raiseRead k s).txBuf = s.txBuf := rfl
@[simp] theorem raiseRead_rxBuf (k : ErrKind) (s : State) : (raiseRead k s).rxBuf = freeBytes s.freeCtr := rfl
@[simp] theorem raiseRead_dummy (k : ErrKind) (s : State) : (raiseRead k s).dummy = s.dummy := rfl
@[simp] theorem raiseRead_bus (k : ErrKind) (s : State) : (raiseRead k s).bus = s.bus := rfl
@[simp] theorem raiseRead_pending (k : ErrKind) (s : State) : (raiseRead k s).pending = some (errorResponse k) := rfl
@[simp] theorem raiseRead_host (k : ErrKind) (s : State) : (raiseRead k s).host = s.host := rfl
@[simp] theorem raiseRead_answers (k : ErrKind) (s : State) : (raiseRead k s).answers = s.answers := rfl
@[simp] theorem raiseRead_resetIn (k : ErrKind) (s : State) : (raiseRead k s).resetIn = s.resetIn := rfl
@[simp] theorem raiseRead_trace (k : ErrKind) (s : State) : (raiseRead k s).trace = s.trace := rfl
@[simp] theorem raiseRead_responses (k : ErrKind) (s : State) : (raiseRead k s).responses = s.responses := rfl
@[simp] theorem raiseRead_freeCtr (k : ErrKind) (s : State) : (raiseRead k s).freeCtr = s.freeCtr + 127 := rfl

/-! ### finishOk -/

@[simp] theorem finishOk_bound (v : Word) (r : List Byte) (s : State) : (finishOk v r s).bound = s.bound := rfl
@[simp] theorem finishOk_devAddr (v : Word) (r : List Byte) (s : State) : (finishOk v r s).devAddr = s.devAddr := rfl
@[simp] theorem finishOk_lastW (v : Word) (r : List Byte) (s : State) : (finishOk v r s).lastW = s.lastW := rfl
@[simp] theorem finishOk_lastR (v : Word) (r : List Byte) (s : State) : (finishOk v r s).lastR = s.lastR := rfl
@[simp] theorem finishOk_seq (v : Word) (r : List Byte) (s : State) : (finishOk v r s).seq = .done := rfl
@[simp] theorem finishOk_cmd (v : Word) (r : List Byte) (s : State) : (finishOk v r s).cmd = s.cmd := rfl
@[simp] theorem finishOk_txBuf (v : Word) (r : List Byte) (s : State) : (finishOk v r s).txBuf = s.txBuf := rfl
@[simp] theorem finishOk_rxBuf (v : Word) (r : List Byte) (s : State) : (finishOk v r s).rxBuf = s.rxBuf := rfl
@[simp] theorem finishOk_dummy (v : Word) (r : List Byte) (s : State) : (finishOk v r s).dummy = s.dummy := rfl
@[simp] theorem finishOk_bus (v : Word) (r : List Byte) (s : State) : (finishOk v r s).bus = s.bus := rfl
@[simp] theorem finishOk_pending (v : Word) (r : List Byte) (s : State) : (finishOk v r s).pending = some (okResponse v r) := rfl
@[simp] theorem finishOk_host (v : Word) (r : List Byte) (s : State) : (finishOk v r s).host = s.host := rfl
@[simp] theorem finishOk_answers (v : Word) (r : List Byte) (s : State) : (finishOk v r s).answers = s.answers := rfl
@[simp] theorem finishOk_resetIn (v : Word) (r : List Byte) (s : State) : (finishOk v r s).resetIn = s.resetIn := rfl
@[simp] theorem finishOk_trace (v : Word) (r : List Byte) (s : State) : (finishOk v r s).trace = s.trace := rfl
@[simp] theorem finishOk_responses (v : Word) (r : List Byte) (s : State) : (finishOk v r s).responses = s.responses := rfl
@[simp] theorem finishOk_freeCtr (v : Word) (r : List Byte) (s : State) : (finishOk v r s).freeCtr = s.freeCtr := rfl

/-! ### deliver -/

@[simp] theorem deliver_bound (r : Response) (s : State) : (deliver r s).bound = s.bound := rfl
@[simp] theorem deliver_devAddr (r : Response) (s : State) : (deliver r s).devAddr = s.devAddr := rfl
@[simp] theorem deliver_lastW (r : Response) (s : State) : (deliver r s).lastW = s.lastW := rfl
@[simp] theorem deliver_lastR (r : Response) (s : State) : (deliver r s).lastR = s.lastR := rfl
@[simp] theorem deliver_seq (r : Response) (s : State) : (deliver r s).seq = .idle := rfl
@[simp] theorem deliver_cmd (r : Response) (s : State) : (deliver r s).cmd = s.cmd := rfl
@[simp] theorem deliver_txBuf (r : Response) (s : State) : (deliver r s).txBuf = s.txBuf := rfl
@[simp] theorem deliver_rxBuf (r : Response) (s : State) : (deliver r s).rxBuf = s.rxBuf := rfl
@[simp] theorem deliver_dummy (r : Response) (s : State) : (deliver r s).dummy = s.dummy := rfl
@[simp] theorem deliver_bus (r : Response) (s : State) : (deliver r s).bus = s.bus := rfl
@[simp] theorem deliver_pending (r : Response) (s : State) : (deliver r s).pending = none := rfl
@[simp] theorem deliver_host (r : Response) (s : State) : (deliver r s).host = s.host := rfl
@[simp] theorem deliver_answers (r : Response) (s : State) : (deliver r s).answers = s.answers := rfl
@[simp] theorem deliver_resetIn (r : Response) (s : State) : (deliver r s).resetIn = s.resetIn := rfl
@[simp] theorem deliver_trace (r : Response) (s : State) : (deliver r s).trace = s.trace := rfl
@[simp] theorem deliver_responses (r : Response) (s : State) : (deliver r s).responses = s.responses ++ [r] := rfl
@[simp] theorem deliver_freeCtr (r : Response) (s : State) : (deliver r s).freeCtr = s.freeCtr := rfl

/-! ### issue -/

@[simp] theorem issue_bound (q : Seq) (x : Exchange) (s : State) : (issue q x s).bound = s.bound := rfl
@[simp] theorem issue_devAddr (q : Seq) (x : Exchange) (s : State) : (issue q x s).devAddr = s.devAddr := rfl
@[simp] theorem issue_lastW (q : Seq) (x : Exchange) (s : State) : (issue q x s).lastW = s.lastW := rfl
@[simp] theorem issue_lastR (q : Seq) (x : Exchange) (s : State) : (issue q x s).lastR = s.lastR := rfl
@[simp] theorem issue_seq (q : Seq) (x : Exchange) (s : State) : (issue q x s).seq = q := rfl
@[simp] theorem issue_cmd (q : Seq) (x : Exchange) (s : State) : (issue q x s).cmd = s.cmd := rfl
@[simp] theorem issue_txBuf (q : Seq) (x : Exchange) (s : State) : (issue q x s).txBuf = s.txBuf := rfl
@[simp] theorem issue_rxBuf (q : Seq) (x : Exchange) (s : State) : (issue q x s).rxBuf = s.rxBuf := rfl
@[simp] theorem issue_dummy (q : Seq) (x : Exchange) (s : State) : (issue q x s).dummy = s.dummy := rfl
@[simp] theorem issue_bus (q : Seq) (x : Exchange) (s : State) : (issue q x s).bus = some x := rfl
@[simp] theorem issue_pending (q : Seq) (x : Exchange) (s : State) : (issue q x s).pending = s.pending := rfl
@[simp] theorem issue_host (q : Seq) (x : Exchange) (s : State) : (issue q x s).host = s.host := rfl
@[simp] theorem issue_answers (q : Seq) (x : Exchange) (s : State) : (issue q x s).answers = s.answers := rfl
@[simp] theorem issue_resetIn (q : Seq) (x : Exchange) (s : State) : (issue q x s).resetIn = s.resetIn := rfl
@[simp] theorem issue_trace (q : Seq) (x : Exchange) (s : State) : (issue q x s).trace = s.trace := rfl
@[simp] theorem issue_responses (q : Seq) (x : Exchange) (s : State) : (issue q x s).responses = s.responses := rfl
@[simp] theorem issue_freeCtr (q : Seq) (x : Exchange) (s : State) : (issue q x s).freeCtr = s.freeCtr := rfl

/-! ### settle -/

@[simp] theorem settle_bound (x : Exchange) (e : Ending) (l : List Answer) (s : State) : (settle x e l s).bound = s.bound := rfl
@[simp] theorem settle_devAddr (x : Exchange) (e : Ending) (l : List Answer) (s : State) : (settle x e l s).devAddr = s.devAddr := rfl
@[simp] theorem settle_lastW (x : Exchange) (e : Ending) (l : List Answer) (s : State) : (settle x e l s).lastW = s.lastW := rfl
@[simp] theorem settle_lastR (x : Exchange) (e : Ending) (l : List Answer) (s : State) : (settle x e l s).lastR = s.lastR := rfl
@[simp] theorem settle_seq (x : Exchange) (e : Ending) (l : List Answer) (s : State) : (settle x e l s).seq = s.seq := rfl
@[simp] theorem settle_cmd (x : Exchange) (e : Ending) (l : List Answer) (s : State) : (settle x e l s).cmd = s.cmd := rfl
@[simp] theorem settle_txBuf (x : Exchange) (e : Ending) (l : List Answer) (s : State) : (settle x e l s).txBuf = s.txBuf := rfl
@[simp] theorem settle_rxBuf (x : Exchange) (e : Ending) (l : List Answer) (s : State) : (settle x e l s).rxBuf = s.rxBuf := rfl
@[simp] theorem settle_dummy (x : Exchange) (e : Ending) (l : List Answer) (s : State) : (settle x e l s).dummy = s.dummy := rfl
@[simp] theorem settle_bus (x : Exchange) (e : Ending) (l : List Answer) (s : State) : (settle x e l s).bus = none := rfl
@[simp] theorem settle_pending (x : Exchange) (e : Ending) (l : List Answer) (s : State) : (settle x e l s).pending = s.pending := rfl
@[simp] theorem settle_host (x : Exchange) (e : Ending) (l : List Answer) (s : State) : (settle x e l s).host = s.host := rfl
@[simp] theorem settle_answers (x : Exchange) (e : Ending) (l : List Answer) (s : State) : (settle x e l s).answers = l := rfl
@[simp] theorem settle_resetIn (x : Exchange) (e : Ending) (l : List Answer) (s : State) : (settle x e l s).resetIn = s.resetIn := rfl
@[simp] theorem settle_trace (x : Exchange) (e : Ending) (l : List Answer) (s : State) : (settle x e l s).trace = s.trace ++ [⟨x, e⟩] := rfl
@[simp] theorem settle_responses (x : Exchange) (e : Ending) (l : List Answer) (s : State) : (settle x e l s).responses = s.responses := rfl
@[simp] theorem settle_freeCtr (x : Exchange) (e : Ending) (l : List Answer) (s : State) : (settle x e l s).freeCtr = s.freeCtr := rfl

/-! ### loadTx -/

@[simp] theorem loadTx_bound (o : Byte) (l : List Byte) (s : State) : (loadTx o l s).bound = s.bound := by simp only [loadTx]
@[simp] theorem loadTx_devAddr (o : Byte) (l : List Byte) (s : State) : (loadTx o l s).devAddr = s.devAddr := by simp only [loadTx]
@[simp] theorem loadTx_lastW (o : Byte) (l : List Byte) (s : State) : (loadTx o l s).lastW = s.lastW := by simp only [loadTx]
@[simp] theorem loadTx_lastR (o : Byte) (l : List Byte) (s : State) : (loadTx o l s).lastR = s.lastR := by simp only [loadTx]
@[simp] theorem loadTx_seq (o : Byte) (l : List Byte) (s : State) : (loadTx o l s).seq = s.seq := by simp only [loadTx]
@[simp] theorem loadTx_cmd (o : Byte) (l : List Byte) (s : State) : (loadTx o l s).cmd = s.cmd := by simp only [loadTx]
@[simp] theorem loadTx_txBuf (o : Byte) (l : List Byte) (s : State) : (loadTx o l s).txBuf = overlay (o :: l) s.txBuf := by simp only [loadTx]
@[simp] theorem loadTx_rxBuf (o : Byte) (l : List Byte) (s : State) : (loadTx o l s).rxBuf = s.rxBuf := by simp only [loadTx]
@[simp] theorem loadTx_dummy (o : Byte) (l : List Byte) (s : State) : (loadTx o l s).dummy = s.dummy := by simp only [loadTx]
@[simp] theorem loadTx_bus (o : Byte) (l : List Byte) (s : State) : (loadTx o l s).bus = s.bus := by simp only [loadTx]
@[simp] theorem loadTx_pending (o : Byte) (l : List Byte) (s : State) : (loadTx o l s).pending = s.pending := by simp only [loadTx]
@[simp] theorem loadTx_host (o : Byte) (l : List Byte) (s : State) : (loadTx o l s).host = s.host := by simp only [loadTx]
@[simp] theorem loadTx_answers (o : Byte) (l : List Byte) (s : State) : (loadTx o l s).answers = s.answers := by simp only [loadTx]
@[simp] theorem loadTx_resetIn (o : Byte) (l : List Byte) (s : State) : (loadTx o l s).resetIn = s.resetIn := by simp only [loadTx]
@[simp] theorem loadTx_trace (o : Byte) (l : List Byte) (s : State) : (loadTx o l s).trace = s.trace := by simp only [loadTx]
@[simp] theorem loadTx_responses (o : Byte) (l : List Byte) (s : State) : (loadTx o l s).responses = s.responses := by simp only [loadTx]
@[simp] theorem loadTx_freeCtr (o : Byte) (l : List Byte) (s : State) : (loadTx o l s).freeCtr = s.freeCtr := by simp only [loadTx]

/-! ### loadRx -/

@[simp] theorem loadRx_bound (l : List Byte) (s : State) : (loadRx l s).bound = s.bound := by simp only [loadRx]
@[simp] theorem loadRx_devAddr (l : List Byte) (s : State) : (loadRx l s).devAddr = s.devAddr := by simp only [loadRx]
@[simp] theorem loadRx_lastW (l : List Byte) (s : State) : (loadRx l s).lastW = s.lastW := by simp only [loadRx]
@[simp] theorem loadRx_lastR (l : List Byte) (s : State) : (loadRx l s).lastR = s.lastR := by simp only [loadRx]
@[simp] theorem loadRx_seq (l : List Byte) (s : State) : (loadRx l s).seq = s.seq := by simp only [loadRx]
@[simp] theorem loadRx_cmd (l : List Byte) (s : State) : (loadRx l s).cmd = s.cmd := by simp only [loadRx]
@[simp] theorem loadRx_txBuf (l : List Byte) (s : State) : (loadRx l s).txBuf = s.txBuf := by simp only [loadRx]
@[simp] theorem loadRx_rxBuf (l : List Byte) (s : State) : (loadRx l s).rxBuf = overlay l s.rxBuf := by simp only [loadRx]
@[simp] theorem loadRx_dummy (l : List Byte) (s : State) : (loadRx l s).dummy = s.dummy := by simp only [loadRx]
@[simp] theorem loadRx_bus (l : List Byte) (s : State) : (loadRx l s).bus = s.bus := by simp only [loadRx]
@[simp] theorem loadRx_pending (l : List Byte) (s : State) : (loadRx l s).pending = s.pending := by simp only [loadRx]
@[simp] theorem loadRx_host (l : List Byte) (s : State) : (loadRx l s).host = s.host := by simp only [loadRx]
@[simp] theorem loadRx_answers (l : List Byte) (s : State) : (loadRx l s).answers = s.answers := by simp only [loadRx]
@[simp] theorem loadRx_resetIn (l : List Byte) (s : State) : (loadRx l s).resetIn = s.resetIn := by simp only [loadRx]
@[simp] theorem loadRx_trace (l : List Byte) (s : State) : (loadRx l s).trace = s.trace := by simp only [loadRx]
@[simp] theorem loadRx_responses (l : List Byte) (s : State) : (loadRx l s).responses = s.responses := by simp only [loadRx]
@[simp] theorem loadRx_freeCtr (l : List Byte) (s : State) : (loadRx l s).freeCtr = s.freeCtr := by simp only [loadRx]

/-! ### loadDummy -/

@[simp] theorem loadDummy_bound (b : Byte) (s : State) : (loadDummy b s).bound = s.bound := rfl
@[simp] theorem loadDummy_devAddr (b : Byte) (s : State) : (loadDummy b s).devAddr = s.devAddr := rfl
@[simp] theorem loadDummy_lastW (b : Byte) (s : State) : (loadDummy b s).lastW = s.lastW := rfl
@[simp] theorem loadDummy_lastR (b : Byte) (s : State) : (loadDummy b s).lastR = s.lastR := rfl
@[simp] theorem loadDummy_seq (b : Byte) (s : State) : (loadDummy b s).seq = s.seq := rfl
@[simp] theorem loadDummy_cmd (b : Byte) (s : State) : (loadDummy b s).cmd = s.cmd := rfl
@[simp] theorem loadDummy_txBuf (b : Byte) (s : State) : (loadDummy b s).txBuf = s.txBuf := rfl
@[simp] theorem loadDummy_rxBuf (b : Byte) (s : State) : (loadDummy b s).rxBuf = s.rxBuf := rfl
@[simp] theorem loadDummy_dummy (b : Byte) (s : State) : (loadDummy b s).dummy = b := rfl
@[simp] theorem loadDummy_bus (b : Byte) (s : State) : (loadDummy b s).bus = s.bus := rfl
@[simp] theorem loadDummy_pending (b : Byte) (s : State) : (loadDummy b s).pending = s.pending := rfl
@[simp] theorem loadDummy_host (b : Byte) (s : State) : (loadDummy b s).host = s.host := rfl
@[simp] theorem loadDummy_answers (b : Byte) (s : State) : (loadDummy b s).answers = s.answers := rfl
@[simp] theorem loadDummy_resetIn (b : Byte) (s : State) : (loadDummy b s).resetIn = s.resetIn := rfl
@[simp] theorem loadDummy_trace (b : Byte) (s : State) : (loadDummy b s).trace = s.trace := rfl
@[simp] theorem loadDummy_responses (b : Byte) (s : State) : (loadDummy b s).responses = s.responses := rfl
@[simp] theorem loadDummy_freeCtr (b : Byte) (s : State) : (loadDummy b s).freeCtr = s.freeCtr := rfl

/-! ### recordWrite -/

@[simp] theorem recordWrite_bound (a : Word) (s : State) : (recordWrite a s).bound = s.bound := rfl
@[simp] theorem recordWrite_devAddr (a : Word) (s : State) : (recordWrite a s).devAddr = s.devAddr := rfl
@[simp] theorem recordWrite_lastW (a : Word) (s : State) : (recordWrite a s).lastW = bookkeepingAddress a := rfl
@[simp] theorem recordWrite_lastR (a : Word) (s : State) : (recordWrite a s).lastR = s.lastR := rfl
@[simp] theorem recordWrite_seq (a : Word) (s : State) : (recordWrite a s).seq = s.seq := rfl
@[simp] theorem recordWrite_cmd (a : Word) (s : State) : (recordWrite a s).cmd = s.cmd := rfl
@[simp] theorem recordWrite_txBuf (a : Word) (s : State) : (recordWrite a s).txBuf = s.txBuf := rfl
@[simp] theorem recordWrite_rxBuf (a : Word) (s : State) : (recordWrite a s).rxBuf = s.rxBuf := rfl
@[simp] theorem recordWrite_dummy (a : Word) (s : State) : (recordWrite a s).dummy = s.dummy := rfl
@[simp] theorem recordWrite_bus (a : Word) (s : State) : (recordWrite a s).bus = s.bus := rfl
@[simp] theorem recordWrite_pending (a : Word) (s : State) : (recordWrite a s).pending = s.pending := rfl
@[simp] theorem recordWrite_host (a : Word) (s : State) : (recordWrite a s).host = s.host := rfl
@[simp] theorem recordWrite_answers (a : Word) (s : State) : (recordWrite a s).answers = s.answers := rfl
@[simp] theorem recordWrite_resetIn (a : Word) (s : State) : (recordWrite a s).resetIn = s.resetIn := rfl
@[simp] theorem recordWrite_trace (a : Word) (s : State) : (recordWrite a s).trace = s.trace := rfl
@[simp] theorem recordWrite_responses (a : Word) (s : State) : (recordWrite a s).responses = s.responses := rfl
@[simp] theorem recordWrite_freeCtr (a : Word) (s : State) : (recordWrite a s).freeCtr = s.freeCtr := rfl

/-! ### recordRead -/

@[simp] theorem recordRead_bound (a : Word) (s : State) : (recordRead a s).bound = s.bound := rfl
@[simp] theorem recordRead_devAddr (a : Word) (s : State) : (recordRead a s).devAddr = s.devAddr := rfl
@[simp] theorem recordRead_lastW (a : Word) (s : State) : (recordRead a s).lastW = s.lastW := rfl
@[simp] theorem recordRead_lastR (a : Word) (s : State) : (recordRead a s).lastR = bookkeepingAddress a := rfl
@[simp] theorem recordRead_seq (a : Word) (s : State) : (recordRead a s).seq = s.seq := rfl
@[simp] theorem recordRead_cmd (a : Word) (s : State) : (recordRead a s).cmd = s.cmd := rfl
@[simp] theorem recordRead_txBuf (a : Word) (s : State) : (recordRead a s).txBuf = s.txBuf := rfl
@[simp] theorem recordRead_rxBuf (a : Word) (s : State) : (recordRead a s).rxBuf = s.rxBuf := rfl
@[simp] theorem recordRead_dummy (a : Word) (s : State) : (recordRead a s).dummy = s.dummy := rfl
@[simp] theorem recordRead_bus (a : Word) (s : State) : (recordRead a s).bus = s.bus := rfl
@[simp] theorem recordRead_pending (a : Word) (s : State) : (recordRead a s).pending = s.pending := rfl
@[simp] theorem recordRead_host (a : Word) (s : State) : (recordRead a s).host = s.host := rfl
@[simp] theorem recordRead_answers (a : Word) (s : State) : (recordRead a s).answers = s.answers := rfl
@[simp] theorem recordRead_resetIn (a : Word) (s : State) : (recordRead a s).resetIn = s.resetIn := rfl
@[simp] theorem recordRead_trace (a : Word) (s : State) : (recordRead a s).trace = s.trace := rfl
@[simp] theorem recordRead_responses (a : Word) (s : State) : (recordRead a s).responses = s.responses := rfl
@[simp] theorem recordRead_freeCtr (a : Word) (s : State) : (recordRead a s).freeCtr = s.freeCtr := rfl

/-! ### bindHandle -/

@[simp] theorem bindHandle_bound (v : BusAddr) (s : State) : (bindHandle v s).bound = true := rfl
@[simp] theorem bindHandle_devAddr (v : BusAddr) (s : State) : (bindHandle v s).devAddr = v := rfl
@[simp] theorem bindHandle_lastW (v : BusAddr) (s : State) : (bindHandle v s).lastW = 0#9 := rfl
@[simp] theorem bindHandle_lastR (v : BusAddr) (s : State) : (bindHandle v s).lastR = 0#9 := rfl
@[simp] theorem bindHandle_seq (v : BusAddr) (s : State) : (bindHandle v s).seq = s.seq := rfl
@[simp] theorem bindHandle_cmd (v : BusAddr) (s : State) : (bindHandle v s).cmd = s.cmd := rfl
@[simp] theorem bindHandle_txBuf (v : BusAddr) (s : State) : (bindHandle v s).txBuf = s.txBuf := rfl
@[simp] theorem bindHandle_rxBuf (v : BusAddr) (s : State) : (bindHandle v s).rxBuf = s.rxBuf := rfl
@[simp] theorem bindHandle_dummy (v : BusAddr) (s : State) : (bindHandle v s).dummy = s.dummy := rfl
@[simp] theorem bindHandle_bus (v : BusAddr) (s : State) : (bindHandle v s).bus = s.bus := rfl
@[simp] theorem bindHandle_pending (v : BusAddr) (s : State) : (bindHandle v s).pending = s.pending := rfl
@[simp] theorem bindHandle_host (v : BusAddr) (s : State) : (bindHandle v s).host = s.host := rfl
@[simp] theorem bindHandle_answers (v : BusAddr) (s : State) : (bindHandle v s).answers = s.answers := rfl
@[simp] theorem bindHandle_resetIn (v : BusAddr) (s : State) : (bindHandle v s).resetIn = s.resetIn := rfl
@[simp] theorem bindHandle_trace (v : BusAddr) (s : State) : (bindHandle v s).trace = s.trace := rfl
@[simp] theorem bindHandle_responses (v : BusAddr) (s : State) : (bindHandle v s).responses = s.responses := rfl
@[simp] theorem bindHandle_freeCtr (v : BusAddr) (s : State) : (bindHandle v s).freeCtr = s.freeCtr := rfl

/-! ### releaseHandle -/

@[simp] theorem releaseHandle_bound (s : State) : (releaseHandle s).bound = false := rfl
@[simp] theorem releaseHandle_devAddr (s : State) : (releaseHandle s).devAddr = s.devAddr := rfl
@[simp] theorem releaseHandle_lastW (s : State) : (releaseHandle s).lastW = s.lastW := rfl
@[simp] theorem releaseHandle_lastR (s : State) : (releaseHandle s).lastR = s.lastR := rfl
@[simp] theorem releaseHandle_seq (s : State) : (releaseHandle s).seq = s.seq := rfl
@[simp] theorem releaseHandle_cmd (s : State) : (releaseHandle s).cmd = s.cmd := rfl
@[simp] theorem releaseHandle_txBuf (s : State) : (releaseHandle s).txBuf = s.txBuf := rfl
@[simp] theorem releaseHandle_rxBuf (s : State) : (releaseHandle s).rxBuf = s.rxBuf := rfl
@[simp] theorem releaseHandle_dummy (s : State) : (releaseHandle s).dummy = s.dummy := rfl
@[simp] theorem releaseHandle_bus (s : State) : (releaseHandle s).bus = s.bus := rfl
@[simp] theorem releaseHandle_pending (s : State) : (releaseHandle s).pending = s.pending := rfl
@[simp] theorem releaseHandle_host (s : State) : (releaseHandle s).host = s.host := rfl
@[simp] theorem releaseHandle_answers (s : State) : (releaseHandle s).answers = s.answers := rfl
@[simp] theorem releaseHandle_resetIn (s : State) : (releaseHandle s).resetIn = s.resetIn := rfl
@[simp] theorem releaseHandle_trace (s : State) : (releaseHandle s).trace = s.trace := rfl
@[simp] theorem releaseHandle_responses (s : State) : (releaseHandle s).responses = s.responses := rfl
@[simp] theorem releaseHandle_freeCtr (s : State) : (releaseHandle s).freeCtr = s.freeCtr := rfl

/-! ### toMult -/

@[simp] theorem toMult_bound (s : State) : (toMult s).bound = s.bound := rfl
@[simp] theorem toMult_devAddr (s : State) : (toMult s).devAddr = s.devAddr := rfl
@[simp] theorem toMult_lastW (s : State) : (toMult s).lastW = s.lastW := rfl
@[simp] theorem toMult_lastR (s : State) : (toMult s).lastR = s.lastR := rfl
@[simp] theorem toMult_seq (s : State) : (toMult s).seq = .mult := rfl
@[simp] theorem toMult_cmd (s : State) : (toMult s).cmd = s.cmd := rfl
@[simp] theorem toMult_txBuf (s : State) : (toMult s).txBuf = s.txBuf := rfl
@[simp] theorem toMult_rxBuf (s : State) : (toMult s).rxBuf = s.rxBuf := rfl
@[simp] theorem toMult_dummy (s : State) : (toMult s).dummy = s.dummy := rfl
@[simp] theorem toMult_bus (s : State) : (toMult s).bus = s.bus := rfl
@[simp] theorem toMult_pending (s : State) : (toMult s).pending = s.pending := rfl
@[simp] theorem toMult_host (s : State) : (toMult s).host = s.host := rfl
@[simp] theorem toMult_answers (s : State) : (toMult s).answers = s.answers := rfl
@[simp] theorem toMult_resetIn (s : State) : (toMult s).resetIn = s.resetIn := rfl
@[simp] theorem toMult_trace (s : State) : (toMult s).trace = s.trace := rfl
@[simp] theorem toMult_responses (s : State) : (toMult s).responses = s.responses := rfl
@[simp] theorem toMult_freeCtr (s : State) : (toMult s).freeCtr = s.freeCtr := rfl

/-! ### hardReset -/

@[simp] theorem hardReset_bound (q : ResetFate) (s : State) : (hardReset q s).bound = false := rfl
@[simp] theorem hardReset_devAddr (q : ResetFate) (s : State) : (hardReset q s).devAddr = s.devAddr := rfl
@[simp] theorem hardReset_lastW (q : ResetFate) (s : State) : (hardReset q s).lastW = s.lastW := rfl
@[simp] theorem hardReset_lastR (q : ResetFate) (s : State) : (hardReset q s).lastR = s.lastR := rfl
@[simp] theorem hardReset_seq (q : ResetFate) (s : State) : (hardReset q s).seq = .idle := rfl
@[simp] theorem hardReset_cmd (q : ResetFate) (s : State) : (hardReset q s).cmd = s.cmd := rfl
@[simp] theorem hardReset_txBuf (q : ResetFate) (s : State) : (hardReset q s).txBuf = s.txBuf := rfl
@[simp] theorem hardReset_rxBuf (q : ResetFate) (s : State) : (hardReset q s).rxBuf = s.rxBuf := rfl
@[simp] theorem hardReset_dummy (q : ResetFate) (s : State) : (hardReset q s).dummy = s.dummy := rfl
@[simp] theorem hardReset_bus (q : ResetFate) (s : State) : (hardReset q s).bus = none := rfl
@[simp] theorem hardReset_pending (q : ResetFate) (s : State) : (hardReset q s).pending = none := rfl
@[simp] theorem hardReset_host (q : ResetFate) (s : State) : (hardReset q s).host = s.host := rfl
@[simp] theorem hardReset_answers (q : ResetFate) (s : State) : (hardReset q s).answers = s.answers := rfl
@[simp] theorem hardReset_resetIn (q : ResetFate) (s : State) : (hardReset q s).resetIn = none := rfl
@[simp] theorem hardReset_trace (q : ResetFate) (s : State) : (hardReset q s).trace = s.trace ++ cutRecords q s.bus := rfl
@[simp] theorem hardReset_responses (q : ResetFate) (s : State) : (hardReset q s).responses = s.responses := rfl
@[simp] theorem hardReset_freeCtr (q : ResetFate) (s : State) : (hardReset q s).freeCtr = s.freeCtr := rfl

/-! ### placeCommand -/

@[simp] theorem placeCommand_bound (d : Descriptor) (s : State) : (placeCommand d s).bound = s.bound := rfl
@[simp] theorem placeCommand_devAddr (d : Descriptor) (s : State) : (placeCommand d s).devAddr = s.devAddr := rfl
@[simp] theorem placeCommand_lastW (d : Descriptor) (s : State) : (placeCommand d s).lastW = s.lastW := rfl
@[simp] theorem placeCommand_lastR (d : Descriptor) (s : State) : (placeCommand d s).lastR = s.lastR := rfl
@[simp] theorem placeCommand_seq (d : Descriptor) (s : State) : (placeCommand d s).seq = .idle := rfl
@[simp] theorem placeCommand_cmd (d : Descriptor) (s : State) : (placeCommand d s).cmd = s.cmd := rfl
@[simp] theorem placeCommand_txBuf (d : Descriptor) (s : State) : (placeCommand d s).txBuf = s.txBuf := rfl
@[simp] theorem placeCommand_rxBuf (d : Descriptor) (s : State) : (placeCommand d s).rxBuf = s.rxBuf := rfl
@[simp] theorem placeCommand_dummy (d : Descriptor) (s : State) : (placeCommand d s).dummy = s.dummy := rfl
@[simp] theorem placeCommand_bus (d : Descriptor) (s : State) : (placeCommand d s).bus = s.bus := rfl
@[simp] theorem placeCommand_pending (d : Descriptor) (s : State) : (placeCommand d s).pending = s.pending := rfl
@[simp] theorem placeCommand_host (d : Descriptor) (s : State) : (placeCommand d s).host = d :: s.host := rfl
@[simp] theorem placeCommand_answers (d : Descriptor) (s : State) : (placeCommand d s).answers = s.answers := rfl
@[simp] theorem placeCommand_resetIn (d : Descriptor) (s : State) : (placeCommand d s).resetIn = none := rfl
@[simp] theorem placeCommand_trace (d : Descriptor) (s : State) : (placeCommand d s).trace = s.trace := rfl
@[simp] theorem placeCommand_responses (d : Descriptor) (s : State) : (placeCommand d s).responses = s.responses := rfl
@[simp] theorem placeCommand_freeCtr (d : Descriptor) (s : State) : (placeCommand d s).freeCtr = s.freeCtr := rfl

/-! ### accept -/

@[simp] theorem accept_bound (s : State) : (accept s).bound = s.bound := by
  unfold accept; split <;> rfl
@[simp] theorem accept_devAddr (s : State) : (accept s).devAddr = s.devAddr := by
  unfold accept; split <;> rfl
@[simp] theorem accept_lastW (s : State) : (accept s).lastW = s.lastW := by
  unfold accept; split <;> rfl
@[simp] theorem accept_lastR (s : State) : (accept s).lastR = s.lastR := by
  unfold accept; split <;> rfl
@[simp] theorem accept_seq (s : State) : (accept s).seq = if s.seq = .idle then .check else s.seq := by
  unfold accept; split <;> rfl
@[simp] theorem accept_cmd (s : State) : (accept s).cmd = s.cmd := by
  unfold accept; split <;> rfl
@[simp] theorem accept_txBuf (s : State) : (accept s).txBuf = s.txBuf := by
  unfold accept; split <;> rfl
@[simp] theorem accept_rxBuf (s : State) : (accept s).rxBuf = s.rxBuf := by
  unfold accept; split <;> rfl
@[simp] theorem accept_dummy (s : State) : (accept s).dummy = s.dummy := by
  unfold accept; split <;> rfl
@[simp] theorem accept_bus (s : State) : (accept s).bus = s.bus := by
  unfold accept; split <;> rfl
@[simp] theorem accept_pending (s : State) : (accept s).pending = s.pending := by
  unfold accept; split <;> rfl
@[simp] theorem accept_host (s : State) : (accept s).host = s.host := by
  unfold accept; split <;> rfl
@[simp] theorem accept_answers (s : State) : (accept s).answers = s.answers := by
  unfold accept; split <;> rfl
@[simp] theorem accept_resetIn (s : State) : (accept s).resetIn = s.resetIn := by
  unfold accept; split <;> rfl
@[simp] theorem accept_trace (s : State) : (accept s).trace = s.trace := by
  unfold accept; split <;> rfl
@[simp] theorem accept_responses (s : State) : (accept s).responses = s.responses := by
  unfold accept; split <;> rfl
@[simp] theorem accept_freeCtr (s : State) : (accept s).freeCtr = s.freeCtr := by
  unfold accept; split <;> rfl

/-- From IDLE a command is accepted into CHECK. -/
theorem accept_of_idle {s : State} (h : s.seq = .idle) : accept s = { s with seq := .check } := by
  simp [accept, h]

/-- In any other state nothing is accepted. -/
theorem accept_of_not_idle {s : State} (h : s.seq ≠ .idle) : accept s = s := by
  simp [accept, h]

@[simp] theorem commitNothing_eq (s : State) : commitNothing s = s := rfl

end Sys2Proof.Machine
end

