-- ==== Sys2Proof/Laws/Ops.lean ====
section
/-! SUPPORT. What each shared operation can do, said once: waiting for an answer, a data command's check, the move of DONE, a
run of moves, and a command on the short path. -/

namespace Sys2Proof.Machine

/-! ### Sequencing -/

@[simp] theorem andThen_next (s : State) (f : State → Result) : andThen (.next s) f = f s := rfl

@[simp] theorem runMoves_zero (m : State → Result) (s : State) : runMoves m 0 s = .next s := rfl

theorem runMoves_succ (m : State → Result) (k : Nat) (s : State) :
    runMoves m (k + 1) s = andThen (m s) (runMoves m k) := rfl

/-- What goes on after a first outcome answers next only through a next state. -/
theorem andThen_eq_next {r : Result} {f : State → Result} {t : State} (h : andThen r f = .next t) :
    ∃ u, r = .next u ∧ f u = .next t := by
  cases r with
  | next u => exact ⟨u, rfl, h⟩
  | fault e => cases h
  | refused e => cases h

/-- A state that a move does not change is kept by any number of moves. -/
theorem runMoves_fixed {m : State → Result} {s : State} (h : m s = .next s) (k : Nat) :
    runMoves m k s = .next s := by
  induction k with
  | zero => rfl
  | succ k ih => rw [runMoves_succ, h, andThen_next, ih]

/-- A property of states that every move keeps is kept by a run of moves. -/
theorem runMoves_keeps {m : State → Result} {P : State → Prop}
    (hm : ∀ s t, P s → m s = .next t → P t) (k : Nat) {s t : State} (hs : P s)
    (h : runMoves m k s = .next t) : P t := by
  induction k generalizing s with
  | zero => cases h; exact hs
  | succ k ih =>
    obtain ⟨u, hu, ht⟩ := andThen_eq_next h
    exact ih (hm s u hs hu) ht

/-- Where every move from a state with P answers next and keeps P, a run of moves answers next. -/
theorem runMoves_answers {m : State → Result} {P : State → Prop}
    (hm : ∀ s, P s → ∃ t, m s = .next t ∧ P t) (k : Nat) {s : State} (hs : P s) :
    ∃ t, runMoves m k s = .next t ∧ P t := by
  induction k generalizing s with
  | zero => exact ⟨s, rfl, hs⟩
  | succ k ih =>
    obtain ⟨u, hu, hP⟩ := hm s hs
    rw [runMoves_succ, hu, andThen_next]
    exact ih hP

/-- Every command is a run of its own moves. -/
theorem exec_eq_runCommand (i : Instr) (s : State) : exec i s = runCommand (moveOf i) s := by
  cases i <;> rfl

/-! ### Waiting for the transport (R152, R159) -/

theorem await_silent {fail : ErrKind → State → State} {s : State} {go : Vector Byte 127 → State → Result}
    {x : Exchange} (hb : s.bus = some x) (ha : s.answers = []) : await fail s go = .next s := by
  simp [await, hb, ha]

theorem await_err {fail : ErrKind → State → State} {s : State} {go : Vector Byte 127 → State → Result}
    {x : Exchange} {e : TErr} {rest : List Answer} (hb : s.bus = some x) (ha : s.answers = .err e :: rest) :
    await fail s go = .next (fail (.transportError e) (settle x (.err e) rest s)) := by
  simp [await, hb, ha]

theorem await_ok {fail : ErrKind → State → State} {s : State} {go : Vector Byte 127 → State → Result}
    {x : Exchange} {rx : Vector Byte 127} {rest : List Answer} (hb : s.bus = some x)
    (ha : s.answers = .ok rx :: rest) :
    await fail s go = go rx (settle x (.ok (received rx x.readLen)) rest s) := by
  simp [await, hb, ha]

/-- Everything waiting can come to. -/
theorem await_cases {fail : ErrKind → State → State} {s t : State} {go : Vector Byte 127 → State → Result}
    (h : await fail s go = .next t) :
    ∃ x, s.bus = some x ∧
      ((s.answers = [] ∧ t = s) ∨
       (∃ e rest, s.answers = .err e :: rest ∧ t = fail (.transportError e) (settle x (.err e) rest s)) ∨
       (∃ rx rest, s.answers = .ok rx :: rest ∧
          go rx (settle x (.ok (received rx x.readLen)) rest s) = .next t)) := by
  cases hb : s.bus with
  | none => simp [await, hb] at h
  | some x =>
    refine ⟨x, rfl, ?_⟩
    match ha : s.answers with
    | [] => rw [await_silent hb ha] at h; cases h; exact .inl ⟨rfl, rfl⟩
    | .err e :: rest => rw [await_err hb ha] at h; cases h; exact .inr (.inl ⟨e, rest, rfl, rfl⟩)
    | .ok rx :: rest => rw [await_ok hb ha] at h; exact .inr (.inr ⟨rx, rest, rfl, h⟩)

/-! ### Checks -/

@[simp] theorem dataCheck_ok {α : Type} (fail : ErrKind → State → State) (v : α) (s : State) (go : α → Result) :
    dataCheck fail (.ok v) s go = go v := rfl

/-- The bounds check of a data command (R121, R157). -/
theorem dataCheck_bounds (fail : ErrKind → State → State) (a : Word) (s : State) (go : Unit → Result) :
    dataCheck fail (validateBounds a) s go =
      if a.toNat < 512 then go () else .next (fail .addressOutOfRange s) := by
  by_cases h : a.toNat < 512
  · rw [validateBounds_ok h, if_pos h]; rfl
  · rw [validateBounds_error (by omega), if_neg h]; rfl

/-- The window check of a data command whose bounds check has passed (R128, R157). -/
theorem dataCheck_window (fail : ErrKind → State → State) {a n : Word} (h : a.toNat < 512) (s : State)
    (go : Unit → Result) :
    dataCheck fail (validateWindow a n) s go =
      if (inPageOffset a).toNat + n.toNat ≤ windowMax (inPageOffset a) then go ()
      else .next (fail .pageWriteWindowOverflow s) := by
  by_cases hw : (inPageOffset a).toNat + n.toNat ≤ windowMax (inPageOffset a)
  · rw [validateWindow_ok h hw, if_pos hw]; rfl
  · rw [validateWindow_overflow h (by omega), if_neg hw]; rfl

/-- Conversion after the bounds check never fails (R157). -/
theorem dataCheck_convert (fail : ErrKind → State → State) {a : Word} (h : a.toNat < 512) (s : State)
    (go : BusAddr × Byte → Result) :
    dataCheck fail (convert a) s go = go (pageSelect a, inPageOffset a) := by
  rw [convert_ok h]; rfl

/-! ### The end of a command -/

theorem doneMove_of_pending {commit : State → State} {s : State} {r : Response} (h : s.pending = some r) :
    doneMove commit s = .next (deliver r (if r.status = .ok then commit s else s)) := by
  simp [doneMove, h]

/-- Everything the move of DONE can come to. -/
theorem doneMove_cases {commit : State → State} {s t : State} (h : doneMove commit s = .next t) :
    ∃ r, s.pending = some r ∧ t = deliver r (if r.status = .ok then commit s else s) := by
  cases hp : s.pending with
  | none => simp [doneMove, hp] at h
  | some r => rw [doneMove_of_pending hp] at h; cases h; exact ⟨r, rfl, rfl⟩

theorem shortMove_idle {check commit : State → State} {s : State} (h : s.seq = .idle) :
    shortMove check commit s = .next s := by
  simp [shortMove, h]

/-- A command on the short path, from IDLE: its check ends the command, and DONE delivers (R150). -/
theorem runCommand_short {check commit : State → State} {s : State} {r : Response} (hs : s.seq = .idle)
    (hd : (check (accept s)).seq = .done) (hp : (check (accept s)).pending = some r) :
    runCommand (shortMove check commit) s =
      .next (deliver r (if r.status = .ok then commit (check (accept s)) else check (accept s))) := by
  have hc : (accept s).seq = .check := by simp [hs]
  have h1 : shortMove check commit (accept s) = .next (check (accept s)) := by simp only [shortMove, hc]
  have h2 : shortMove check commit (check (accept s)) =
      .next (deliver r (if r.status = .ok then commit (check (accept s)) else check (accept s))) := by
    simp only [shortMove, hd]
    exact doneMove_of_pending hp
  rw [runCommand, runMoves_succ, h1, andThen_next, runMoves_succ, h2, andThen_next]
  exact runMoves_fixed (shortMove_idle (by simp)) 3

end Sys2Proof.Machine
end

