-- ==== Sys2Proof/Laws/Moves.lean ====
section
/-! SUPPORT. Everything one move of the sequencer can do, said once (Moved); invariants and frames over all commands are case
analyses of it. -/

namespace Sys2Proof.Machine

/-- READ_BYTE and READ_ARRAY. -/
def readsArray : Instr → Bool
  | .construct _ _ _ => false
  | .release => false
  | .writeByte _ _ => false
  | .readByte _ => true
  | .writeArray _ _ _ => false
  | .readArray _ _ => true
  | .prevWriteAddr => false
  | .prevReadAddr => false
  | .validateBounds _ => false
  | .convert _ => false
  | .validateWindow _ _ => false
  | .illegal _ => false

/-- How a command raises an error past the gate. -/
def raiseOf (i : Instr) : ErrKind → State → State := if readsArray i then raiseRead else raise

/-- What a command writes at its end. -/
def commitOf : Instr → State → State
  | .construct a2 a1 a0 => bindHandle (deviceAddress a2 a1 a0)
  | .release => releaseHandle
  | .writeByte a _ => recordWrite a
  | .readByte a => recordRead a
  | .writeArray a _ _ => recordWrite a
  | .readArray a _ => recordRead a
  | .prevWriteAddr => commitNothing
  | .prevReadAddr => commitNothing
  | .validateBounds _ => commitNothing
  | .convert _ => commitNothing
  | .validateWindow _ _ => commitNothing
  | .illegal _ => commitNothing

/-- What follows an Ok answer in each waiting state of a command's path. -/
inductive GoesOn : Instr → Seq → Vector Byte 127 → State → State → Prop where
  | writeBytePresel (a d rx u) : GoesOn (.writeByte a d) .presel rx u (sendWriteByte a d u)
  | writeByteXfer (a d rx u) : GoesOn (.writeByte a d) .xfer rx u (finishOk 0#32 [] u)
  | readBytePresel (a rx u) : GoesOn (.readByte a) .presel rx u
      (issue .xfer (readExchange u.devAddr (inPageOffset a) 1) u)
  | readByteXfer (a rx u) : GoesOn (.readByte a) .xfer rx u
      (finishOk (rx[0].setWidth 32) [rx[0]] (loadRx [rx[0]] u))
  | readArrayPresel (a n rx u) : GoesOn (.readArray a n) .presel rx u
      (issue .dummy (readExchange u.devAddr (inPageOffset a) 1) u)
  | readArrayDummy (a n rx u) : GoesOn (.readArray a n) .dummy rx u
      (issue .xfer (readExchange u.devAddr (inPageOffset a) n.toNat) (loadDummy rx[0] u))
  | readArrayXfer (a n rx u) : GoesOn (.readArray a n) .xfer rx u
      (finishOk 0#32 (received rx n.toNat) (loadRx (received rx n.toNat) u))
  | writeArrayPresel (a n p rx u) : GoesOn (.writeArray a n p) .presel rx u (toMult u)
  | writeArrayXfer (a n p rx u) : GoesOn (.writeArray a n p) .xfer rx u (finishOk 0#32 [] u)

/-- Everything a move can do. -/
inductive Moved (i : Instr) (s : State) : State → Prop where
  /-- IDLE, or no answer yet: nothing happens. -/
  | stays (h : s.seq = .idle ∨ (s.seq.waiting = true ∧ s.bus.isSome = true ∧ s.answers = [])) : Moved i s s
  /-- CHECK refuses the command: by the gate, or because it is illegal. -/
  | refusedCheck (hq : s.seq = .check)
      (hg : refusedByGate s.bound i = true ∨ ∃ h, i = .illegal h) : Moved i s (raise .illegalCommand s)
  /-- CHECK finds another error; a command that is not a data command writes nothing. -/
  | failsCheck (k : ErrKind) (hq : s.seq = .check) (hk : k ≠ .illegalCommand) (he : ∀ e, k ≠ .transportError e)
      (hg : refusedByGate s.bound i = false) : Moved i s (raiseOf i k s)
  /-- CHECK of a command on the short path succeeds. -/
  | answersAtOnce (v : Word) (hq : s.seq = .check) (hd : dataAddress i = none)
      (hg : refusedByGate s.bound i = false) : Moved i s (finishOk v [] s)
  /-- CHECK of a data command succeeds: the pre-write is issued. -/
  | preselects (a : Word) (hq : s.seq = .check) (hb : s.bound = true) (hc : checksPass i)
      (hd : dataAddress i = some a) : Moved i s (issue .presel (preselExchange (pageSelect a)) s)
  /-- The transport answers Err. -/
  | transportFails (x : Exchange) (e : TErr) (rest : List Answer) (hw : s.seq.waiting = true)
      (hq : s.seq ∈ pathOf i) (hb : s.bus = some x) (ha : s.answers = .err e :: rest) :
      Moved i s (raiseOf i (.transportError e) (settle x (.err e) rest s))
  /-- The transport answers Ok. -/
  | transportAnswers (x : Exchange) (rx : Vector Byte 127) (rest : List Answer) (t : State) (q : Seq)
      (hs : s.seq = q) (hw : s.seq.waiting = true) (hb : s.bus = some x) (ha : s.answers = .ok rx :: rest)
      (hg : GoesOn i q rx (settle x (.ok (received rx x.readLen)) rest s) t) : Moved i s t
  /-- MULT refuses the length. -/
  | failsMult (a n : Word) (p : Vector Byte 16) (hq : s.seq = .mult) (hi : i = .writeArray a n p)
      (hn : legalMultiple n = false) : Moved i s (raise .invalidPayloadMultiple s)
  /-- MULT accepts the length: the data write is issued. -/
  | sends (a n : Word) (p : Vector Byte 16) (hq : s.seq = .mult) (hi : i = .writeArray a n p)
      (hn : legalMultiple n = true) : Moved i s (sendWriteArray a n p s)
  /-- DONE delivers the response, after what the command writes at its end if the status is OK. -/
  | delivers (r : Response) (hq : s.seq = .done) (hp : s.pending = some r) :
      Moved i s (deliver r (if r.status = .ok then commitOf i s else s))

theorem windowPasses_iff (a n : Word) :
    windowPasses a n ↔ (inPageOffset a).toNat + n.toNat ≤ windowMax (inPageOffset a) := by
  rw [windowPasses, windowMax_eq]

/-- The moves of a command on the short path. -/
theorem shortMove_moved {i : Instr} {check : State → State} {s t : State}
    (hc : s.seq = .check → Moved i s (check s)) (h : shortMove check (commitOf i) s = .next t) : Moved i s t := by
  cases hq : s.seq <;> simp only [shortMove, hq] at h
  case idle => cases h; exact .stays (.inl hq)
  case check => cases h; exact hc hq
  case done => obtain ⟨r, hp, rfl⟩ := doneMove_cases h; exact .delivers r hq hp
  all_goals cases h

/-- The moves of a waiting state. -/
theorem await_moved {i : Instr} {s t : State} {go : Vector Byte 127 → State → Result}
    (hw : s.seq.waiting = true) (hq : s.seq ∈ pathOf i) (h : await (raiseOf i) s go = .next t)
    (hg : ∀ rx u v, go rx u = .next v → GoesOn i s.seq rx u v) : Moved i s t := by
  obtain ⟨x, hb, h | ⟨e, rest, ha, rfl⟩ | ⟨rx, rest, ha, h⟩⟩ := await_cases h
  · obtain ⟨ha, rfl⟩ := h
    exact .stays (.inr ⟨hw, by simp [hb], ha⟩)
  · exact .transportFails x e rest hw hq hb ha
  · exact .transportAnswers x rx rest t s.seq rfl hw hb ha (hg _ _ _ h)

theorem checkWriteByte_moved {a : Word} {d : Byte} {s t : State} (hq : s.seq = .check)
    (h : checkWriteByte a s = .next t) : Moved (.writeByte a d) s t := by
  cases hb : s.bound <;> simp only [checkWriteByte, needHandle, hb, dataCheck_bounds] at h
  · cases h; exact .refusedCheck hq (.inl (by simp [refusedByGate, hb]))
  · by_cases ha : a.toNat < 512
    · simp only [ha, dataCheck_convert _ ha, if_true] at h
      cases h
      exact .preselects a hq hb ha rfl
    · simp only [ha, if_true, if_false] at h
      cases h
      exact .failsCheck .addressOutOfRange hq (by simp) (by simp) (by simp [refusedByGate, hb])

theorem checkReadByte_moved {a : Word} {s t : State} (hq : s.seq = .check)
    (h : checkReadByte a s = .next t) : Moved (.readByte a) s t := by
  cases hb : s.bound <;> simp only [checkReadByte, needHandle, hb, dataCheck_bounds] at h
  · cases h; exact .refusedCheck hq (.inl (by simp [refusedByGate, hb]))
  · by_cases ha : a.toNat < 512
    · simp only [ha, dataCheck_convert _ ha, if_true] at h
      cases h
      exact .preselects a hq hb ha rfl
    · simp only [ha, if_true, if_false] at h
      cases h
      exact .failsCheck .addressOutOfRange hq (by simp) (by simp) (by simp [refusedByGate, hb])

theorem checkReadArray_moved {a n : Word} {s t : State} (hq : s.seq = .check)
    (h : checkReadArray a n s = .next t) : Moved (.readArray a n) s t := by
  cases hb : s.bound <;> simp only [checkReadArray, needHandle, hb, dataCheck_bounds] at h
  · cases h; exact .refusedCheck hq (.inl (by simp [refusedByGate, hb]))
  · by_cases ha : a.toNat < 512
    · by_cases hw : (inPageOffset a).toNat + n.toNat ≤ windowMax (inPageOffset a)
      · simp only [ha, dataCheck_window _ ha, hw, dataCheck_convert _ ha, if_true] at h
        cases h
        exact .preselects a hq hb ⟨ha, (windowPasses_iff a n).2 hw⟩ rfl
      · simp only [ha, dataCheck_window _ ha, hw, if_true, if_false] at h
        cases h
        exact .failsCheck .pageWriteWindowOverflow hq (by simp) (by simp) (by simp [refusedByGate, hb])
    · simp only [ha, if_true, if_false] at h
      cases h
      exact .failsCheck .addressOutOfRange hq (by simp) (by simp) (by simp [refusedByGate, hb])

theorem checkWriteArray_moved {a n : Word} {p : Vector Byte 16} {s t : State} (hq : s.seq = .check)
    (h : checkWriteArray a n s = .next t) : Moved (.writeArray a n p) s t := by
  cases hb : s.bound <;> simp only [checkWriteArray, needHandle, hb, dataCheck_bounds] at h
  · cases h; exact .refusedCheck hq (.inl (by simp [refusedByGate, hb]))
  · have hg : refusedByGate s.bound (.writeArray a n p) = false := by simp [refusedByGate, hb]
    by_cases hn : n.toNat > 16
    · simp only [hn, if_true] at h
      cases h
      exact .failsCheck .payloadTooLarge hq (by simp) (by simp) hg
    by_cases ha : a.toNat < 512
    · by_cases hw : (inPageOffset a).toNat + n.toNat ≤ windowMax (inPageOffset a)
      · simp only [hn, ha, dataCheck_window _ ha, hw, dataCheck_convert _ ha, if_true, if_false] at h
        cases h
        exact .preselects a hq hb ⟨by omega, ha, (windowPasses_iff a n).2 hw⟩ rfl
      · simp only [hn, ha, dataCheck_window _ ha, hw, if_true, if_false] at h
        cases h
        exact .failsCheck .pageWriteWindowOverflow hq (by simp) (by simp) hg
    · simp only [hn, ha, if_true, if_false] at h
      cases h
      exact .failsCheck .addressOutOfRange hq (by simp) (by simp) hg

/-- The inversion lemma of a move: whatever it answers is one of Moved's cases. -/
theorem moved_of_moveOf {i : Instr} {s t : State} (h : moveOf i s = .next t) : Moved i s t := by
  cases i with
  | construct a2 a1 a0 =>
    refine shortMove_moved (fun hq => ?_) h
    cases hb : s.bound <;> simp only [checkConstruct, hb, if_true, if_false, Bool.false_eq_true]
    · exact .answersAtOnce _ hq rfl (by simp [refusedByGate, hb])
    · exact .refusedCheck hq (.inl (by simp [refusedByGate, hb]))
  | release =>
    refine shortMove_moved (fun hq => ?_) h
    cases hb : s.bound <;> simp only [checkRelease, hb, if_true, if_false, Bool.false_eq_true]
    · exact .refusedCheck hq (.inl (by simp [refusedByGate, hb]))
    · exact .answersAtOnce _ hq rfl (by simp [refusedByGate, hb])
  | prevWriteAddr =>
    refine shortMove_moved (fun hq => ?_) h
    cases hb : s.bound <;> simp only [checkPrevWriteAddr, hb, if_true, if_false, Bool.false_eq_true]
    · exact .refusedCheck hq (.inl (by simp [refusedByGate, hb]))
    · exact .answersAtOnce _ hq rfl (by simp [refusedByGate, hb])
  | prevReadAddr =>
    refine shortMove_moved (fun hq => ?_) h
    cases hb : s.bound <;> simp only [checkPrevReadAddr, hb, if_true, if_false, Bool.false_eq_true]
    · exact .refusedCheck hq (.inl (by simp [refusedByGate, hb]))
    · exact .answersAtOnce _ hq rfl (by simp [refusedByGate, hb])
  | validateBounds a =>
    refine shortMove_moved (fun hq => ?_) h
    by_cases ha : a.toNat < 512
    · rw [checkValidateBounds, validateBounds_ok ha]
      exact .answersAtOnce _ hq rfl rfl
    · rw [checkValidateBounds, validateBounds_error (by omega)]
      exact .failsCheck .addressOutOfRange hq (by simp) (by simp) rfl
  | convert a =>
    refine shortMove_moved (fun hq => ?_) h
    by_cases ha : a.toNat < 512
    · rw [checkConvert, convert_ok ha]
      exact .answersAtOnce _ hq rfl rfl
    · rw [checkConvert, convert_error (by omega)]
      exact .failsCheck .addressConversionFailure hq (by simp) (by simp) rfl
  | validateWindow a n =>
    refine shortMove_moved (fun hq => ?_) h
    by_cases ha : a.toNat < 512
    · by_cases hw : (inPageOffset a).toNat + n.toNat ≤ windowMax (inPageOffset a)
      · rw [checkValidateWindow, validateWindow_ok ha hw]
        exact .answersAtOnce _ hq rfl rfl
      · rw [checkValidateWindow, validateWindow_overflow ha (by omega)]
        exact .failsCheck .pageWriteWindowOverflow hq (by simp) (by simp) rfl
    · rw [checkValidateWindow, validateWindow_error (by omega)]
      exact .failsCheck .addressConversionFailure hq (by simp) (by simp) rfl
  | illegal w => exact shortMove_moved (fun hq => .refusedCheck hq (.inr ⟨w, rfl⟩)) h
  | writeByte a d =>
    cases hq : s.seq <;> simp only [moveOf, moveWriteByte, hq] at h
    case idle => cases h; exact .stays (.inl hq)
    case check => exact checkWriteByte_moved hq h
    case presel =>
      exact await_moved (by simp [hq, Seq.waiting]) (by simp [hq, pathOf]) h
        (fun rx u v hv => by cases hv; rw [hq]; exact .writeBytePresel a d rx u)
    case xfer =>
      exact await_moved (by simp [hq, Seq.waiting]) (by simp [hq, pathOf]) h
        (fun rx u v hv => by cases hv; rw [hq]; exact .writeByteXfer a d rx u)
    case done => obtain ⟨r, hp, rfl⟩ := doneMove_cases h; exact .delivers r hq hp
    all_goals cases h
  | readByte a =>
    cases hq : s.seq <;> simp only [moveOf, moveReadByte, hq] at h
    case idle => cases h; exact .stays (.inl hq)
    case check => exact checkReadByte_moved hq h
    case presel =>
      exact await_moved (by simp [hq, Seq.waiting]) (by simp [hq, pathOf]) h
        (fun rx u v hv => by cases hv; rw [hq]; exact .readBytePresel a rx u)
    case xfer =>
      exact await_moved (by simp [hq, Seq.waiting]) (by simp [hq, pathOf]) h
        (fun rx u v hv => by cases hv; rw [hq]; exact .readByteXfer a rx u)
    case done => obtain ⟨r, hp, rfl⟩ := doneMove_cases h; exact .delivers r hq hp
    all_goals cases h
  | readArray a n =>
    cases hq : s.seq <;> simp only [moveOf, moveReadArray, hq] at h
    case idle => cases h; exact .stays (.inl hq)
    case check => exact checkReadArray_moved hq h
    case presel =>
      exact await_moved (by simp [hq, Seq.waiting]) (by simp [hq, pathOf]) h
        (fun rx u v hv => by cases hv; rw [hq]; exact .readArrayPresel a n rx u)
    case dummy =>
      exact await_moved (by simp [hq, Seq.waiting]) (by simp [hq, pathOf]) h
        (fun rx u v hv => by cases hv; rw [hq]; exact .readArrayDummy a n rx u)
    case xfer =>
      exact await_moved (by simp [hq, Seq.waiting]) (by simp [hq, pathOf]) h
        (fun rx u v hv => by cases hv; rw [hq]; exact .readArrayXfer a n rx u)
    case done => obtain ⟨r, hp, rfl⟩ := doneMove_cases h; exact .delivers r hq hp
    all_goals cases h
  | writeArray a n p =>
    cases hq : s.seq <;> simp only [moveOf, moveWriteArray, hq] at h
    case idle => cases h; exact .stays (.inl hq)
    case check => exact checkWriteArray_moved hq h
    case presel =>
      exact await_moved (by simp [hq, Seq.waiting]) (by simp [hq, pathOf]) h
        (fun rx u v hv => by cases hv; rw [hq]; exact .writeArrayPresel a n p rx u)
    case mult =>
      cases h
      cases hn : legalMultiple n <;> simp only [multWriteArray, hn, if_true, if_false, Bool.false_eq_true]
      · exact .failsMult a n p hq rfl hn
      · exact .sends a n p hq rfl hn
    case xfer =>
      exact await_moved (by simp [hq, Seq.waiting]) (by simp [hq, pathOf]) h
        (fun rx u v hv => by cases hv; rw [hq]; exact .writeArrayXfer a n p rx u)
    case done => obtain ⟨r, hp, rfl⟩ := doneMove_cases h; exact .delivers r hq hp
    all_goals cases h

/-! ### Progress -/

/-- How many moves a state of SEQ is away from IDLE at most. -/
def Seq.rank : Seq → Nat
  | .idle => 0
  | .done => 1
  | .xfer => 2
  | .mult => 3
  | .dummy => 3
  | .presel => 4
  | .check => 5

/-- Where a command comes to rest: its response delivered, or waiting for the transport. -/
def rests (s : State) : Prop :=
  s.seq = .idle ∨ (s.seq.waiting = true ∧ s.bus.isSome = true ∧ s.answers = [])

/-- An error ends the command, whichever way it is raised. -/
@[simp] theorem raiseOf_seq (i : Instr) (k : ErrKind) (s : State) : (raiseOf i k s).seq = .done := by
  unfold raiseOf; split <;> rfl

@[simp] theorem raiseOf_pending (i : Instr) (k : ErrKind) (s : State) :
    (raiseOf i k s).pending = some (errorResponse k) := by
  unfold raiseOf; split <;> rfl

/-- A move changes nothing, at rest, or brings SEQ nearer to IDLE. -/
theorem Moved.progress {i : Instr} {s t : State} (h : Moved i s t) :
    (t = s ∧ rests s) ∨ t.seq.rank < s.seq.rank := by
  cases h with
  | stays h => exact .inl ⟨rfl, h⟩
  | refusedCheck hq hg => right; simp [hq, Seq.rank]
  | failsCheck k hq hk he hg => right; simp [hq, Seq.rank]
  | answersAtOnce v hq hd hg => right; simp [hq, Seq.rank]
  | preselects a hq hb hc hd => right; simp [hq, Seq.rank]
  | transportFails x e rest hw hq hb ha =>
    right
    cases hs : s.seq <;> simp [hs, Seq.waiting] at hw <;> simp [Seq.rank]
  | transportAnswers x rx rest t q hs hw hb ha hg =>
    right
    rw [hs]
    cases hg <;> simp [sendWriteByte, Seq.rank]
  | failsMult a n p hq hi hn => right; simp [hq, Seq.rank]
  | sends a n p hq hi hn => right; simp [hq, sendWriteArray, Seq.rank]
  | delivers r hq hp => right; simp [hq, Seq.rank]

/-- A run of at least as many moves as SEQ's distance from IDLE comes to rest. -/
theorem runMoves_rests {i : Instr} (k : Nat) {s t : State} (hk : s.seq.rank ≤ k)
    (h : runMoves (moveOf i) k s = .next t) : rests t := by
  induction k generalizing s with
  | zero =>
    cases h
    left
    cases hs : t.seq <;> simp [hs, Seq.rank] at hk
    rfl
  | succ k ih =>
    obtain ⟨u, hu, ht⟩ := andThen_eq_next h
    rcases (moved_of_moveOf hu).progress with ⟨rfl, hr⟩ | hr
    · rw [runMoves_fixed hu] at ht
      cases ht
      exact hr
    · exact ih (by omega) ht

/-- A command comes to rest: it ends, or it waits for the transport (R150, R152). -/
theorem exec_rests {i : Instr} {s t : State} (h : exec i s = .next t) : rests t := by
  rw [exec_eq_runCommand] at h
  refine runMoves_rests 5 ?_ h
  cases (accept s).seq <;> decide

/-- SEQ is on the command's path, a waiting state has its exchange, and DONE has its response. -/
structure InStep (i : Instr) (s : State) : Prop where
  onPath : s.seq ∈ pathOf i
  bus : s.seq.waiting = true → s.bus.isSome = true
  pending : s.seq = .done → s.pending.isSome = true

/-- A move keeps the sequencer in step. -/
theorem Moved.inStep {i : Instr} {s t : State} (hs : InStep i s) (h : Moved i s t) : InStep i t := by
  have hd : Seq.done ∈ pathOf i := by cases i <;> simp [pathOf]
  have hi : Seq.idle ∈ pathOf i := by cases i <;> simp [pathOf]
  cases h with
  | stays h => exact hs
  | refusedCheck hq hg => exact ⟨hd, by simp [Seq.waiting], by simp⟩
  | failsCheck k hq hk he hg => exact ⟨by simpa using hd, by simp [Seq.waiting], by simp⟩
  | answersAtOnce v hq _ hg => exact ⟨hd, by simp [Seq.waiting], by simp⟩
  | preselects a hq hb hc ha =>
    exact ⟨by cases i <;> simp [pathOf, dataAddress] at ha ⊢, by simp, by simp⟩
  | transportFails x e rest hw hq hb ha => exact ⟨by simpa using hd, by simp [Seq.waiting], by simp⟩
  | transportAnswers x rx rest t q hs hw hb ha hg =>
    cases hg <;> exact ⟨by simp [sendWriteByte, pathOf], by simp [sendWriteByte, Seq.waiting], by simp [sendWriteByte]⟩
  | failsMult a n p hq hi hn => exact ⟨hd, by simp [Seq.waiting], by simp⟩
  | sends a n p hq hi' hn => subst hi'; exact ⟨by simp [sendWriteArray, pathOf], by simp [sendWriteArray], by simp [sendWriteArray]⟩
  | delivers r hq hp => exact ⟨by simpa using hi, by simp [Seq.waiting], by simp⟩

theorem await_answers {fail : ErrKind → State → State} {s : State} {go : Vector Byte 127 → State → Result}
    (hb : s.bus.isSome = true) (hg : ∀ rx u, ∃ t, go rx u = .next t) : ∃ t, await fail s go = .next t := by
  obtain ⟨x, hx⟩ := Option.isSome_iff_exists.1 hb
  match ha : s.answers with
  | [] => exact ⟨_, await_silent hx ha⟩
  | .err e :: rest => exact ⟨_, await_err hx ha⟩
  | .ok rx :: rest => rw [await_ok hx ha]; exact hg _ _

theorem doneMove_answers {commit : State → State} {s : State} (hp : s.pending.isSome = true) :
    ∃ t, doneMove commit s = .next t := by
  obtain ⟨r, hr⟩ := Option.isSome_iff_exists.1 hp
  exact ⟨_, doneMove_of_pending hr⟩

theorem shortMove_answers {check commit : State → State} {s : State}
    (hq : s.seq ∈ [Seq.idle, .check, .done]) (hp : s.seq = .done → s.pending.isSome = true) :
    ∃ t, shortMove check commit s = .next t := by
  simp only [List.mem_cons, List.not_mem_nil, or_false] at hq
  rcases hq with hq | hq | hq <;> simp only [shortMove, hq]
  · exact ⟨_, rfl⟩
  · exact ⟨_, rfl⟩
  · exact doneMove_answers (hp hq)

/-- A CHECK of a data command never faults: conversion cannot fail after the bounds check (R157). -/
theorem checkWriteByte_answers (a : Word) (s : State) : ∃ t, checkWriteByte a s = .next t := by
  unfold checkWriteByte needHandle
  split
  · rw [dataCheck_bounds]
    split
    next ha => exact ⟨_, dataCheck_convert _ ha s _⟩
    · exact ⟨_, rfl⟩
  · exact ⟨_, rfl⟩

theorem checkReadByte_answers (a : Word) (s : State) : ∃ t, checkReadByte a s = .next t := by
  unfold checkReadByte needHandle
  split
  · rw [dataCheck_bounds]
    split
    next ha => exact ⟨_, dataCheck_convert _ ha s _⟩
    · exact ⟨_, rfl⟩
  · exact ⟨_, rfl⟩

theorem checkReadArray_answers (a n : Word) (s : State) : ∃ t, checkReadArray a n s = .next t := by
  unfold checkReadArray needHandle
  split
  · rw [dataCheck_bounds]
    split
    next ha =>
      rw [dataCheck_window _ ha]
      split
      · exact ⟨_, dataCheck_convert _ ha s _⟩
      · exact ⟨_, rfl⟩
    · exact ⟨_, rfl⟩
  · exact ⟨_, rfl⟩

theorem checkWriteArray_answers (a n : Word) (s : State) : ∃ t, checkWriteArray a n s = .next t := by
  unfold checkWriteArray needHandle
  split
  · split
    · exact ⟨_, rfl⟩
    rw [dataCheck_bounds]
    split
    next ha =>
      rw [dataCheck_window _ ha]
      split
      · exact ⟨_, dataCheck_convert _ ha s _⟩
      · exact ⟨_, rfl⟩
    · exact ⟨_, rfl⟩
  · exact ⟨_, rfl⟩

/-- In step, every move answers a next state. -/
theorem moveOf_answers {i : Instr} {s : State} (hs : InStep i s) : ∃ t, moveOf i s = .next t := by
  obtain ⟨hq, hb, hp⟩ := hs
  cases i with
  | construct a2 a1 a0 => exact shortMove_answers hq hp
  | release => exact shortMove_answers hq hp
  | prevWriteAddr => exact shortMove_answers hq hp
  | prevReadAddr => exact shortMove_answers hq hp
  | validateBounds a => exact shortMove_answers hq hp
  | convert a => exact shortMove_answers hq hp
  | validateWindow a n => exact shortMove_answers hq hp
  | illegal h => exact shortMove_answers hq hp
  | writeByte a d =>
    simp only [pathOf, List.mem_cons, List.not_mem_nil, or_false] at hq
    rcases hq with hq | hq | hq | hq | hq <;> simp only [moveOf, moveWriteByte, hq]
    · exact ⟨_, rfl⟩
    · exact checkWriteByte_answers a s
    · exact await_answers (hb (by simp [hq, Seq.waiting])) fun _ _ => ⟨_, rfl⟩
    · exact await_answers (hb (by simp [hq, Seq.waiting])) fun _ _ => ⟨_, rfl⟩
    · exact doneMove_answers (hp hq)
  | readByte a =>
    simp only [pathOf, List.mem_cons, List.not_mem_nil, or_false] at hq
    rcases hq with hq | hq | hq | hq | hq <;> simp only [moveOf, moveReadByte, hq]
    · exact ⟨_, rfl⟩
    · exact checkReadByte_answers a s
    · exact await_answers (hb (by simp [hq, Seq.waiting])) fun _ _ => ⟨_, rfl⟩
    · exact await_answers (hb (by simp [hq, Seq.waiting])) fun _ _ => ⟨_, rfl⟩
    · exact doneMove_answers (hp hq)
  | readArray a n =>
    simp only [pathOf, List.mem_cons, List.not_mem_nil, or_false] at hq
    rcases hq with hq | hq | hq | hq | hq | hq <;> simp only [moveOf, moveReadArray, hq]
    · exact ⟨_, rfl⟩
    · exact checkReadArray_answers a n s
    · exact await_answers (hb (by simp [hq, Seq.waiting])) fun _ _ => ⟨_, rfl⟩
    · exact await_answers (hb (by simp [hq, Seq.waiting])) fun _ _ => ⟨_, rfl⟩
    · exact await_answers (hb (by simp [hq, Seq.waiting])) fun _ _ => ⟨_, rfl⟩
    · exact doneMove_answers (hp hq)
  | writeArray a n p =>
    simp only [pathOf, List.mem_cons, List.not_mem_nil, or_false] at hq
    rcases hq with hq | hq | hq | hq | hq | hq <;> simp only [moveOf, moveWriteArray, hq]
    · exact ⟨_, rfl⟩
    · exact checkWriteArray_answers a n s
    · exact await_answers (hb (by simp [hq, Seq.waiting])) fun _ _ => ⟨_, rfl⟩
    · exact ⟨_, rfl⟩
    · exact await_answers (hb (by simp [hq, Seq.waiting])) fun _ _ => ⟨_, rfl⟩
    · exact doneMove_answers (hp hq)

/-! ### Whole commands -/

/-- A property that every move keeps is kept by a command, from wherever SEQ stands. -/
theorem exec_keeps {i : Instr} {P : State → Prop} (ha : ∀ s, P s → P (accept s))
    (hm : ∀ s t, P s → Moved i s t → P t) {s t : State} (hs : P s) (h : exec i s = .next t) : P t := by
  rw [exec_eq_runCommand] at h
  exact runMoves_keeps (fun u v hu hv => hm u v hu (moved_of_moveOf hv)) 5 (ha s hs) h

end Sys2Proof.Machine
end

