-- ==== Sys2Proof/Laws/PerInstr.lean ====
section
/-! SUPPORT. Facts about the commands as syntax, one lemma for each constructor. Family EncodedHeader: the header an
encoded well-formed command carries is read back as that command's opcode, or, for an illegal one, as illegal (R85, R88). -/

namespace Sys2Proof.Laws

/-- The opcode of a command; none for an illegal one. -/
def opcodeOfInstr : Instr → Option Opcode
  | .construct _ _ _ => some .construct
  | .release => some .release
  | .writeByte _ _ => some .writeByte
  | .readByte _ => some .readByte
  | .writeArray _ _ _ => some .writeArray
  | .readArray _ _ => some .readArray
  | .prevWriteAddr => some .prevWriteAddr
  | .prevReadAddr => some .prevReadAddr
  | .validateBounds _ => some .validateBounds
  | .convert _ => some .convert
  | .validateWindow _ _ => some .validateWindow
  | .illegal _ => none

/-- The family's statement. -/
def EncodedHeader.Statement (i : Instr) : Prop :=
  i.wf = true → (decodeHeader (encode i).h).toOption = opcodeOfInstr i

theorem EncodedHeader.construct (a2 a1 a0 : Bool) : EncodedHeader.Statement (.construct a2 a1 a0) := by
  intro _; cases a2 <;> cases a1 <;> cases a0 <;> rfl

theorem EncodedHeader.release : EncodedHeader.Statement .release := fun _ => rfl

/-- The header of WRITE_BYTE reads back, for each data byte. -/
theorem decodeHeader_writeByte :
    ∀ d : Byte, (decodeHeader (d.setWidth 32 <<< 8 ||| 0x3#32)).toOption = some .writeByte := by decide +kernel

theorem EncodedHeader.writeByte (a : Word) (d : Byte) : EncodedHeader.Statement (.writeByte a d) :=
  fun _ => decodeHeader_writeByte d

theorem decodeHeader_readByte : decodeHeader 0x4#32 = .ok .readByte := rfl
theorem decodeHeader_writeArray : decodeHeader 0x5#32 = .ok .writeArray := rfl
theorem decodeHeader_readArray : decodeHeader 0x6#32 = .ok .readArray := rfl
theorem decodeHeader_validateBounds : decodeHeader 0x9#32 = .ok .validateBounds := rfl
theorem decodeHeader_convert : decodeHeader 0xA#32 = .ok .convert := rfl
theorem decodeHeader_validateWindow : decodeHeader 0xB#32 = .ok .validateWindow := rfl

theorem EncodedHeader.readByte (a : Word) : EncodedHeader.Statement (.readByte a) :=
  fun _ => congrArg Except.toOption decodeHeader_readByte

theorem EncodedHeader.writeArray (a n : Word) (p : Vector Byte 16) :
    EncodedHeader.Statement (.writeArray a n p) :=
  fun _ => congrArg Except.toOption decodeHeader_writeArray

theorem EncodedHeader.readArray (a n : Word) : EncodedHeader.Statement (.readArray a n) :=
  fun _ => congrArg Except.toOption decodeHeader_readArray

theorem EncodedHeader.prevWriteAddr : EncodedHeader.Statement .prevWriteAddr := fun _ => rfl

theorem EncodedHeader.prevReadAddr : EncodedHeader.Statement .prevReadAddr := fun _ => rfl

theorem EncodedHeader.validateBounds (a : Word) : EncodedHeader.Statement (.validateBounds a) :=
  fun _ => congrArg Except.toOption decodeHeader_validateBounds

theorem EncodedHeader.convert (a : Word) : EncodedHeader.Statement (.convert a) :=
  fun _ => congrArg Except.toOption decodeHeader_convert

theorem EncodedHeader.validateWindow (a n : Word) : EncodedHeader.Statement (.validateWindow a n) :=
  fun _ => congrArg Except.toOption decodeHeader_validateWindow

/-- R86 and R87's words agree with R88's pseudocode. -/
theorem decodeHeader_of_not_legal {h : Word} (hl : headerLegal h = false) : (decodeHeader h).toOption = none := by
  unfold decodeHeader
  split
  · rfl
  next h1 =>
  split
  · rfl
  next h2 =>
  split
  · rfl
  next h3 =>
  have h1' : h.extractLsb' 16 16 = 0#16 ∧ h.extractLsb' 7 1 = 0#1 := by
    simpa [Header.reservedHigh, Header.reserved7] using h1
  have h2' : h.extractLsb' 0 4 = 0x3#4 ∨ h.extractLsb' 8 8 = 0#8 := by
    simp only [Header.op, Header.data, ne_eq, not_and, not_not] at h2
    exact Classical.or_iff_not_imp_left.2 h2
  have h3' : h.extractLsb' 0 4 = 0x1#4 ∨ h.extractLsb' 4 3 = 0#3 := by
    simp only [Header.op, Header.cfg, ne_eq, not_and, not_not] at h3
    exact Classical.or_iff_not_imp_left.2 h3
  have hop : ¬ (1 ≤ (h.extractLsb' 0 4).toNat ∧ (h.extractLsb' 0 4).toNat ≤ 0xB) := by
    rintro ⟨ha, hb⟩
    have h2n : (h.extractLsb' 0 4).toNat = 3 ∨ h.extractLsb' 8 8 = 0#8 := h2'.imp (fun e => by rw [e]; rfl) id
    have h3n : (h.extractLsb' 0 4).toNat = 1 ∨ h.extractLsb' 4 3 = 0#3 := h3'.imp (fun e => by rw [e]; rfl) id
    have : headerLegal h = true := by
      unfold headerLegal
      simp only [h1'.1, h1'.2, Bool.and_eq_true, Bool.or_eq_true, beq_iff_eq, decide_eq_true_eq]
      exact ⟨⟨⟨⟨trivial, trivial⟩, h2n⟩, h3n⟩, ha, hb⟩
    rw [hl] at this
    cases this
  have hlt := (h.extractLsb' 0 4).isLt
  have hnone : opcodeOf (Header.op h) = none := by
    unfold opcodeOf Header.op
    split <;> first | rfl | omega
  rw [hnone]
  rfl

theorem EncodedHeader.illegal (h : Word) : EncodedHeader.Statement (.illegal h) := by
  intro hw
  have hl : headerLegal h = false := by simpa [Instr.wf] using hw
  exact decodeHeader_of_not_legal hl

end Sys2Proof.Laws
end

