-- ==== Sys2Proof/Tests/Slice0.lean ====
section
/-! SUPPORT. Tests: ill-formed terms refused, words written out from 30_encoding.md decoded, the vectors of 95_test_vectors.md,
and for every statement with hypotheses a state and operands that meet them. -/

namespace Sys2Proof.Tests

open Sys2Proof Sys2Proof.Machine

/-! ### Helpers -/

/-- A header from its five fields, highest first (R81): H[31:16], DATA, H[7], CFG, OP. -/
def header (high : BitVec 16) (data : Byte) (b7 : BitVec 1) (cfg : BitVec 3) (op : BitVec 4) : Word :=
  high ++ data ++ b7 ++ cfg ++ op

/-- An Ok answer that starts with these bytes. -/
def gives (l : List Byte) : Answer := .ok (overlay l (Vector.replicate 127 0#8))

/-- 95_test_vectors.md section 2.5's start: bound, DEVADDR = RW_FN, LASTW = 0x011, LASTR = 0x022; the transport's answers. -/
def bound (l : List Answer) : State :=
  { State.reset with bound := true, devAddr := deviceAddress false false false, lastW := 0x011#9, lastR := 0x022#9, answers := l }

/-- No handle. -/
def unbound : State := State.reset

/-- The state a command leaves. -/
def ran (i : Instr) (s : State) : State :=
  match exec i s with
  | .next t => t
  | .fault _ => s
  | .refused _ => s

/-- What the host sees of a command: responses, LASTW, LASTR, SEQ and BOUND after it. -/
def seen (i : Instr) (s : State) : List Response × Linear × Linear × Seq × Bool :=
  ((ran i s).responses, (ran i s).lastW, (ran i s).lastR, (ran i s).seq, (ran i s).bound)

/-- The payload 0, 1, to 15. -/
def count16 : Vector Byte 16 := Vector.ofFn fun i => BitVec.ofNat 8 i.val

/-! ### Well-formedness -/

theorem test_wf_refuses_a_legal_header_as_illegal :
    [0x1#32, 0x71#32, 0x2#32, 0xFF03#32, 0x4#32, 0x5#32, 0x6#32, 0x7#32, 0x8#32, 0x9#32, 0xA#32, 0xB#32].map
      (fun h => (Instr.illegal h).wf) = List.replicate 12 false := by decide

theorem test_wf_accepts_each_illegal_header :
    [0x00010009#32, 0x89#32, 0x104#32, 0x13#32, 0xF81#32, 0x0#32, 0xC#32, 0xF#32].map
      (fun h => (Instr.illegal h).wf) = List.replicate 8 true := by decide

theorem test_asm_refuses_a_wrong_byte_count :
    asmWf (.writeArray 0#32 3#32 [1#8, 2#8]) = false ∧ asmWf (.writeArray 0#32 17#32 (List.replicate 17 0#8)) = false ∧
      asmWf (.writeArray 0#32 17#32 (List.replicate 16 0#8)) = true := by decide

/-! ### Decoding (words from R81 and R85, field by field) -/

theorem test_decode_construct : decode (descriptor (header 0#16 0#8 0#1 0b101#3 0x1#4) 7#32 9#32) = .construct true false true := by
  decide

theorem test_decode_construct_a1 : decode (descriptor (header 0#16 0#8 0#1 0b010#3 0x1#4) 0#32 0#32) = .construct false true false := by
  decide

theorem test_decode_release : decode (descriptor (header 0#16 0#8 0#1 0#3 0x2#4) 0#32 0#32) = .release := by decide

theorem test_decode_write_byte :
    decode (descriptor (header 0#16 0b10100101#8 0#1 0#3 0x3#4) 0x1FF#32 0#32) = .writeByte 0x1FF#32 0xA5#8 := by decide

theorem test_decode_read_byte : decode (descriptor (header 0#16 0#8 0#1 0#3 0x4#4) 0x1FF#32 0#32) = .readByte 0x1FF#32 := by decide

theorem test_decode_write_array :
    decode ⟨header 0#16 0#8 0#1 0#3 0x5#4, 0x60#32, 16#32, count16⟩ = .writeArray 0x60#32 16#32 count16 := by decide

theorem test_decode_read_array :
    decode (descriptor (header 0#16 0#8 0#1 0#3 0x6#4) 0x60#32 16#32) = .readArray 0x60#32 16#32 := by decide

theorem test_decode_accessors :
    decode (descriptor (header 0#16 0#8 0#1 0#3 0x7#4) 1#32 2#32) = .prevWriteAddr ∧
    decode (descriptor (header 0#16 0#8 0#1 0#3 0x8#4) 1#32 2#32) = .prevReadAddr := by decide

theorem test_decode_translator :
    decode (descriptor (header 0#16 0#8 0#1 0#3 0x9#4) 511#32 0#32) = .validateBounds 511#32 ∧
    decode (descriptor (header 0#16 0#8 0#1 0#3 0xA#4) 0x300#32 0#32) = .convert 0x300#32 ∧
    decode (descriptor (header 0#16 0#8 0#1 0#3 0xB#4) 0x77#32 8#32) = .validateWindow 0x77#32 8#32 := by decide

theorem test_decode_illegal :
    decode (descriptor (header 1#16 0#8 0#1 0#3 0x9#4) 0#32 0#32) = .illegal 0x00010009#32 ∧
    decode (descriptor (header 0#16 0#8 1#1 0#3 0x9#4) 0#32 0#32) = .illegal 0x00000089#32 ∧
    decode (descriptor (header 0#16 1#8 0#1 0#3 0x4#4) 5#32 0#32) = .illegal 0x00000104#32 ∧
    decode (descriptor (header 0#16 0#8 0#1 1#3 0x3#4) 0#32 0#32) = .illegal 0x00000013#32 ∧
    decode (descriptor (header 0#16 0#8 0#1 0#3 0xC#4) 0#32 0#32) = .illegal 0x0000000C#32 := by decide

/-- The reason is the first test of R88 that fails. -/
theorem test_decode_names_its_reason :
    decodeHeader 0x00010104#32 = .error .reservedBits ∧ decodeHeader 0x00000114#32 = .error .dataUnused ∧
      decodeHeader 0x00000014#32 = .error .cfgUnused ∧ decodeHeader 0x0000000E#32 = .error .reservedOpcode := by decide

theorem test_table_word : decodeTableWord 32 0x0000A503 = some (.writeByte 0#32 0xA5#8) := by decide

/-- A word of the whole descriptor: H, ADDR, LEN and P[0], P[1], lowest first (log entry 12). -/
theorem test_table_word_with_operands :
    decodeTableWord 224 0xBBAA_00000002_00000180_00000005 =
      some (.writeArray 0x180#32 2#32 (overlay [0xAA#8, 0xBB#8] zeroPayload)) := by decide

theorem test_rows_are_disjoint :
    opcodeTable.Pairwise fun r q => (r.pat ^^^ q.pat) &&& r.mask &&& q.mask ≠ 0#32 := by decide

/-! ### The translator (95_test_vectors.md sections 2.1 to 2.3) -/

theorem test_validate_bounds :
    [0x1FF#32, 0x200#32, 0x10000#32, 0xFFFFFFFF#32].map (fun a => seen (.validateBounds a) unbound) =
      [([succeeded 0#32 []], 0#9, 0#9, .idle, false), ([failed .addressOutOfRange none], 0#9, 0#9, .idle, false),
       ([failed .addressOutOfRange none], 0#9, 0#9, .idle, false),
       ([failed .addressOutOfRange none], 0#9, 0#9, .idle, false)] := by decide

theorem test_convert_last_byte :
    (ran (.convert 0x1FF#32) unbound).responses =
      [succeeded (((Config.pageFn ||| 1#7).setWidth 32 <<< 8) ||| 0xFF#32) []] := by rfl

theorem test_convert_out_of_range :
    [0x200#32, 0x300#32].map (fun a => (seen (.convert a) unbound).1) =
      [[failed .addressConversionFailure none], [failed .addressConversionFailure none]] := by decide

theorem test_validate_window_ok :
    [(0x000#32, 127#32), (0x06F#32, 16#32), (0x077#32, 8#32), (0x080#32, 127#32), (0x1EF#32, 16#32), (0x1FF#32, 0#32)].map
      (fun x => (seen (.validateWindow x.1 x.2) unbound).1) = List.replicate 6 [succeeded 0#32 []] := by decide

theorem test_validate_window_overflow :
    [(0x000#32, 0xFFFFFFFF#32), (0x078#32, 8#32), (0x07F#32, 1#32), (0x0FF#32, 8#32), (0x170#32, 16#32), (0x1FF#32, 1#32)].map
      (fun x => (seen (.validateWindow x.1 x.2) unbound).1) =
      List.replicate 6 [failed .pageWriteWindowOverflow none] := by decide

/-! ### The handle (95_test_vectors.md section 2.6) -/

theorem test_construct_101 :
    (ran (.construct true false true) unbound).devAddr = Config.rwFn ||| 4#7 ||| 0#7 ||| 1#7 ∧
      seen (.construct true false true) unbound = ([succeeded 0#32 []], 0#9, 0#9, .idle, true) := by
  exact ⟨rfl, by decide⟩

theorem test_construct_twice_refused :
    seen (.construct false false false) (bound []) = ([failed .illegalCommand none], 0x011#9, 0x022#9, .idle, true) := by decide

theorem test_release :
    seen .release (bound []) = ([succeeded 0#32 []], 0x011#9, 0x022#9, .idle, false) ∧
      (seen .release unbound).1 = [failed .illegalCommand none] := by decide

theorem test_prev_write_addr : (seen .prevWriteAddr (bound [])).1 = [succeeded 0x011#32 []] := by decide

theorem test_prev_read_addr : (seen .prevReadAddr (bound [])).1 = [succeeded 0x022#32 []] := by decide

theorem test_illegal_with_a_handle :
    seen (.illegal 0x104#32) (bound [gives []]) = ([failed .illegalCommand none], 0x011#9, 0x022#9, .idle, true) := by decide

/-! ### Data commands (95_test_vectors.md sections 2.4 and 2.5) -/

theorem test_write_byte :
    (seen (.writeByte 0x100#32 0x3C#8) (bound [gives [], gives []])).2 = (0x100#9, 0x022#9, .idle, true) ∧
      (ran (.writeByte 0x100#32 0x3C#8) (bound [gives [], gives []])).trace =
        [⟨.write (Config.pageFn ||| 1#7) Config.preselFill, .ok []⟩,
         ⟨.write (deviceAddress false false false) [0x00#8, 0x3C#8], .ok []⟩] := by
  exact ⟨by decide, rfl⟩

theorem test_write_byte_second_exchange_fails :
    seen (.writeByte 0x005#32 0x11#8) (bound [gives [], .err ⟨7⟩]) =
      ([failed .transportError (some ⟨7⟩)], 0x011#9, 0x022#9, .idle, true) := by decide

theorem test_read_byte :
    seen (.readByte 0x100#32) (bound [gives [], gives [0x3C#8, 0x99#8]]) =
      ([succeeded 0x3C#32 [0x3C#8]], 0x011#9, 0x100#9, .idle, true) := by decide

theorem test_read_byte_out_of_range :
    seen (.readByte 0xFFFFFFFF#32) (bound [gives []]) =
      ([failed .addressOutOfRange none], 0x011#9, 0x022#9, .idle, true) := by decide

theorem test_read_array :
    (seen (.readArray 0x17D#32 2#32) (bound [gives [], gives [0x01#8], gives [0x02#8, 0x03#8, 0x04#8]])) =
      ([succeeded 0#32 [0x02#8, 0x03#8]], 0x011#9, 0x17D#9, .idle, true) ∧
    (ran (.readArray 0x17D#32 2#32) (bound [gives [], gives [0x01#8], gives [0x02#8, 0x03#8, 0x04#8]])).trace.map
        Record.xchg =
      [.write (Config.pageFn ||| 1#7) Config.preselFill, .writeRead (deviceAddress false false false) [0x7D#8] 1,
       .writeRead (deviceAddress false false false) [0x7D#8] 2] := by
  exact ⟨by decide, rfl⟩

theorem test_read_array_bounds_before_window :
    (seen (.readArray 0x200#32 4#32) (bound [])).1 = [failed .addressOutOfRange none] ∧
      (seen (.readArray 0x000#32 128#32) (bound [])).1 = [failed .pageWriteWindowOverflow none] := by decide

theorem test_write_array :
    (ran (.writeArray 0x1EF#32 16#32 count16) (bound [gives [], gives []])).trace =
      [⟨.write (Config.pageFn ||| 1#7) Config.preselFill, .ok []⟩,
       ⟨.write (deviceAddress false false false) (0xEF#8 :: count16.toList), .ok []⟩] ∧
    (seen (.writeArray 0x1EF#32 16#32 count16) (bound [gives [], gives []])).2 = (0x1EF#9, 0x022#9, .idle, true) := by
  exact ⟨rfl, by decide⟩

/-- The order of the refusals: payload size, bounds, window, then the multiple after the pre-write. -/
theorem test_write_array_order_of_checks :
    [(0x200#32, 17#32), (0x200#32, 16#32), (0x07E#32, 3#32), (0x000#32, 3#32)].map
      (fun x => (seen (.writeArray x.1 x.2 count16) (bound [gives []])).1) =
      [[failed .payloadTooLarge none], [failed .addressOutOfRange none], [failed .pageWriteWindowOverflow none],
       [failed .invalidPayloadMultiple none]] := by decide

/-! ### A step, a reset -/

/-- A word placed runs next, and nothing runs without one. -/
theorem test_step_runs_the_placed_word :
    (match step (State.reset.withFetchWord 32 0x00000051) with
      | .next t => (t.bound, t.responses)
      | .fault _ => (false, [])
      | .refused _ => (false, [])) = (true, [succeeded 0#32 []]) ∧ step State.reset = .next State.reset := by
  exact ⟨by decide, rfl⟩

/-- A reset during the second exchange of a WRITE_BYTE: no response, and the trace keeps both exchanges. -/
theorem test_reset_during_an_exchange :
    (match step { bound [gives []] with
        host := [encode (.writeByte 0x100#32 0x3C#8)], resetIn := some ⟨3, .notPerformed⟩ } with
      | .next t => (t.bound, t.seq, t.responses, t.lastW, t.trace.map Record.ending)
      | .fault _ => (true, .check, [], 0#9, [])
      | .refused _ => (true, .check, [], 0#9, [])) =
      (false, .idle, [], 0x011#9, [.ok [], .cut .notPerformed]) := by decide

/-- A reset in IDLE before the latch leaves the host its descriptor; one after the latch drops the command (log entry 7). -/
theorem test_reset_before_and_after_the_latch :
    [0, 1].map (fun k =>
      match step { bound [] with host := [encode .release], resetIn := some ⟨k, .performed⟩ } with
      | .next t => (t.bound, t.seq, t.host.length, t.responses)
      | .fault _ => (true, .check, 9, [])
      | .refused _ => (true, .check, 9, [])) = [(false, .idle, 1, []), (false, .idle, 0, [])] := by decide

/-! ### Witnesses: every statement's hypotheses are met -/

/-- A device bus address that is neither page-select address, whatever the parameters are. -/
def otherAddress : BusAddr := Config.pageFn ^^^ 2#7

theorem otherAddress_ne : otherAddress ≠ Config.pageFn ∧ otherAddress ≠ Config.pageFn ||| 1#7 := by
  have h : ∀ v : BusAddr, v ^^^ 2#7 ≠ v ∧ v ^^^ 2#7 ≠ v ||| 1#7 := by decide
  exact h Config.pageFn

/-- The core of the bench, with the host's commands. -/
def benchWith (l : List Instr) : Bench :=
  { core := { bound [] with devAddr := otherAddress, host := l.map encode }, dev := RefDevice.initial otherAddress }

theorem witness_DecodingAnEncodedCommandGivesItBack :
    [Instr.construct true true true, .writeByte 0xFFFFFFFF#32 0xFF#8, .writeArray 0#32 0xFFFFFFFF#32 count16,
      .illegal 0xFFFFFFFF#32, .illegal 0#32].all Instr.wf = true := by decide

theorem witness_LegalHeadersMatchExactlyOneRow :
    (0x00010009#32).extractLsb' 16 16 ≠ 0#16 ∧ (0x89#32).extractLsb' 7 1 ≠ 0#1 ∧
    ((0x104#32).extractLsb' 8 8 ≠ 0#8 ∧ (0x104#32).extractLsb' 0 4 ≠ 0x3#4) ∧
    ((0x13#32).extractLsb' 4 3 ≠ 0#3 ∧ (0x13#32).extractLsb' 0 4 ≠ 0x1#4) ∧
    decode (descriptor 0xF#32 0#32 0#32) = .illegal 0xF#32 ∧ rowsMatching 0xF#32 = [] ∧
    decode (descriptor 0xFF03#32 0#32 0#32) ≠ .illegal 0xFF03#32 ∧ unbound.seq = .idle := by decide

theorem witness_ReservedOpcodesAreIllegal :
    (0xFFFFFFF0#32).extractLsb' 0 4 = 0x0#4 ∧ 0xC ≤ ((0xC#32).extractLsb' 0 4).toNat ∧
    0xC ≤ ((0xF#32).extractLsb' 0 4).toNat ∧ unbound.seq = .idle ∧ (bound []).seq = .idle := by decide

theorem witness_DecodingFollowsTheOpcodeMap :
    headerLegal 0xC#32 = false ∧
    ([0x71#32, 0x2#32, 0xFF03#32, 0x4#32, 0x5#32, 0x6#32, 0x7#32, 0x8#32, 0x9#32, 0xA#32, 0xB#32].all headerLegal = true) ∧
    ([0x71#32, 0x2#32, 0xFF03#32, 0x4#32, 0x5#32, 0x6#32, 0x7#32, 0x8#32, 0x9#32, 0xA#32, 0xB#32].map
      (fun h => h.extractLsb' 0 4) = [1#4, 2#4, 3#4, 4#4, 5#4, 6#4, 7#4, 8#4, 9#4, 0xA#4, 0xB#4]) := by decide

theorem witness_OnlyThePayloadWithinTheLengthIsRead :
    (0x3#32).extractLsb' 0 4 ≠ 0x5#4 ∧
    (∀ k : Fin 16, k.val < (1#32).toNat → count16[k] = zeroPayload[k]) ∧ count16 ≠ zeroPayload ∧
    (bound []).seq = .idle ∧ (bound []).bound = true ∧ 16 < (17#32).toNat := by decide

theorem witness_AssembledLinesDecode :
    asmWf (.writeArray 0#32 2#32 [1#8, 2#8]) = true ∧ asmWf (.writeArray 0#32 0#32 []) = true ∧
    asmWf (.writeArray 0#32 0xFFFFFFFF#32 (List.replicate 16 7#8)) = true := by decide

/-- Both sides of each bound of the quadrants: ConversionGoesByQuadrant and BoundsCheckFailsFrom512. -/
theorem witness_quadrant_boundaries :
    (127#32).toNat < 128 ∧ (128 ≤ (128#32).toNat ∧ (255#32).toNat < 256) ∧
    (256 ≤ (256#32).toNat ∧ (383#32).toNat < 384) ∧ (384 ≤ (384#32).toNat ∧ (511#32).toNat < 512) ∧
    512 ≤ (512#32).toNat := by decide

theorem witness_ConversionIsABijection :
    convert 0x1FF#32 = convert 0x1FF#32 ∧ (0x1FF#32).toNat < 512 ∧
    (Config.pageFn ||| 1#7 = Config.pageFn ∨ Config.pageFn ||| 1#7 = Config.pageFn ||| 1#7) := ⟨rfl, by decide, .inr rfl⟩

theorem witness_OffsetsFollowTheQuadrantsParity :
    convert 0x07F#32 = .ok (Config.pageFn, 0x7F#8) ∧ (0x07F#32).extractLsb' 7 2 = 0#2 ∧
    convert 0x080#32 = .ok (Config.pageFn, 0x80#8) ∧ (0x080#32).extractLsb' 7 2 = 1#2 ∧
    convert 0x17F#32 = .ok (Config.pageFn ||| 1#7, 0x7F#8) ∧ (0x17F#32).extractLsb' 7 2 = 2#2 ∧
    convert 0x1FF#32 = .ok (Config.pageFn ||| 1#7, 0xFF#8) ∧ (0x1FF#32).extractLsb' 7 2 = 3#2 := by
  exact ⟨rfl, by decide, rfl, by decide, rfl, by decide, rfl, by decide⟩

/-- WindowCheckComparesTheExactSum and ValidateWindowReportsTheWindowCheck: both sides of both maxima. -/
theorem witness_WindowCheckComparesTheExactSum :
    512 ≤ (512#32).toNat ∧ (0x000#32).toNat < 512 ∧
    (0x000#32).toNat % 256 + (127#32).toNat ≤ (if (0x000#32).getLsbD 7 then 0xFF else 0x7F) ∧
    (if (0x000#32).getLsbD 7 then 0xFF else 0x7F) < (0x000#32).toNat % 256 + (128#32).toNat ∧
    (0x1FF#32).toNat % 256 + (0#32).toNat ≤ (if (0x1FF#32).getLsbD 7 then 0xFF else 0x7F) ∧
    (if (0x1FF#32).getLsbD 7 then 0xFF else 0x7F) < (0x1FF#32).toNat % 256 + (1#32).toNat ∧
    0xFF < (0x100#32).toNat ∧ unbound.seq = .idle := by decide

theorem witness_WindowConsequences :
    validateWindow 0x1FF#32 0#32 = .ok () ∧ validateWindow 0x080#32 127#32 = .ok () ∧ (0x07F#32).toNat % 128 = 127 ∧
    0 < (127#32).toNat := ⟨rfl, rfl, by decide, by decide⟩

/-- ValidateBoundsReportsTheBoundsCheck, ConvertReturnsThePhysicalAddress, TranslatorCommandsReadNoRegister: any idle state, an
address in range and one out of range. -/
theorem witness_translator_commands :
    unbound.seq = .idle ∧ (bound []).seq = .idle ∧ (511#32).toNat < 512 ∧ 512 ≤ (512#32).toNat ∧
    Instr.convert 5#32 ∈ [Instr.validateBounds 5#32, .convert 5#32, .validateWindow 5#32 2#32] := by decide

/-- ConstructBindsTheHandle, ConfigurationBitsAreInTheDeviceAddress, ReleaseEndsTheHandle, AccessorsReturnTheBookkeeping,
BindingGateFollowsItsTable: an idle state with a handle and one without. -/
theorem witness_handle_commands :
    unbound.seq = .idle ∧ unbound.bound = false ∧ (bound []).seq = .idle ∧ (bound []).bound = true ∧
    refusedByGate (bound []).bound (.construct true true true) = true ∧
    refusedByGate (bound []).bound (.release) = false ∧ refusedByGate unbound.bound (.convert 0#32) = false ∧
    exec .release (bound []) = .next (ran .release (bound [])) := by
  exact ⟨rfl, rfl, rfl, rfl, rfl, rfl, rfl, rfl⟩

theorem witness_IllegalCommandsChangeNothing :
    headerLegal 0x00000000#32 = false ∧ headerLegal 0x00010009#32 = false ∧ unbound.seq = .idle ∧ (bound []).seq = .idle := by
  decide

/-- WriteByteFollowsItsRule, ReadByteFollowsItsRule, ReadArrayFollowsItsRule, WriteArrayFollowsItsRule: each answer the transport
can give, in turn, and both ends of the addresses. -/
theorem witness_data_commands :
    (bound []).seq = .idle ∧ (bound []).bound = true ∧ unbound.bound = false ∧ (511#32).toNat < 512 ∧ 512 ≤ (512#32).toNat ∧
    (bound []).answers = [] ∧ (bound [.err ⟨1⟩]).answers = .err ⟨1⟩ :: [] ∧
    (bound [gives []]).answers = [gives []] ∧ (bound [gives [], .err ⟨1⟩]).answers = gives [] :: .err ⟨1⟩ :: [] ∧
    (bound [gives [], gives [], gives []]).answers = gives [] :: gives [] :: gives [] :: [] := by
  exact ⟨rfl, rfl, rfl, by decide, by decide, rfl, rfl, rfl, rfl, rfl⟩

/-- ReadArrayFollowsItsRule and WriteArrayFollowsItsRule: windows that pass and fail, and every class of length. -/
theorem witness_array_commands :
    windowPasses 0x080#32 127#32 ∧ ¬ windowPasses 0x07F#32 1#32 ∧ windowPasses 0x1EF#32 16#32 ∧ ¬ windowPasses 0x1F0#32 16#32 ∧
    16 < (17#32).toNat ∧ (16#32).toNat ≤ 16 ∧ (16#32).toNat ∈ [2, 4, 8, 16] ∧ (3#32).toNat ∉ [2, 4, 8, 16] := by
  unfold windowPasses
  decide

/-- DataCommandsSelectThePageFirst, ExchangesFollowTheTable, ArrayAccessesStayInTheirQuadrant: a READ_ARRAY that succeeds. -/
theorem witness_exchanges :
    dataAddress (.readArray 0x17D#32 2#32) = some 0x17D#32 ∧ (bound [gives [], gives [], gives []]).seq = .idle ∧
    (bound [gives [], gives [], gives []]).bus = none ∧ (bound []).bound = true ∧
    checksPass (.readArray 0x17D#32 2#32) ∧
    exec (.readArray 0x17D#32 2#32) (bound [gives [], gives [], gives []]) =
      .next (ran (.readArray 0x17D#32 2#32) (bound [gives [], gives [], gives []])) ∧
    (ran (.readArray 0x17D#32 2#32) (bound [gives [], gives [], gives []])).responses =
      (bound []).responses ++ [succeeded 0#32 [0#8, 0#8]] ∧
    issued (bound [gives [], gives [], gives []]) (ran (.readArray 0x17D#32 2#32) (bound [gives [], gives [], gives []])) =
      [.write (Config.pageFn ||| 1#7) Config.preselFill, .writeRead (deviceAddress false false false) [0x7D#8] 1,
       .writeRead (deviceAddress false false false) [0x7D#8] 2] := by
  refine ⟨rfl, rfl, rfl, rfl, ?_, rfl, by decide, rfl⟩
  simp only [checksPass, windowPasses]
  decide

/-- The same for a WRITE_ARRAY whose length is refused after the pre-write. -/
theorem witness_write_array_exchange :
    exec (.writeArray 0x000#32 3#32 count16) (bound [gives []]) =
      .next (ran (.writeArray 0x000#32 3#32 count16) (bound [gives []])) ∧
    issued (bound [gives []]) (ran (.writeArray 0x000#32 3#32 count16) (bound [gives []])) =
      [.write Config.pageFn Config.preselFill] := ⟨rfl, rfl⟩

/-- EveryCommandEndsWithOneResponseOrWaits and EveryCommandRunsFromIdle: a command that ends and one that waits. -/
theorem witness_ends_and_waits :
    (bound []).seq = .idle ∧
    exec .release (bound []) = .next (ran .release (bound [])) ∧ (ran .release (bound [])).seq = .idle ∧
    exec (.readByte 0#32) (bound []) = .next (ran (.readByte 0#32) (bound [])) ∧
    (ran (.readByte 0#32) (bound [])).seq = .presel := by
  exact ⟨rfl, rfl, by decide, rfl, by decide⟩

/-- AFailedExchangeEndsTheCommand and the second part of BookkeepingIsWrittenOnlyOnSuccess: the second exchange fails. -/
theorem witness_failed_exchange :
    exec (.writeByte 0x100#32 0x11#8) (bound [gives [], .err ⟨7⟩]) =
      .next (ran (.writeByte 0x100#32 0x11#8) (bound [gives [], .err ⟨7⟩])) ∧
    (bound [gives [], .err ⟨7⟩]).bus = none ∧
    settled (bound [gives [], .err ⟨7⟩]) (ran (.writeByte 0x100#32 0x11#8) (bound [gives [], .err ⟨7⟩])) =
      [⟨.write (Config.pageFn ||| 1#7) Config.preselFill, .ok []⟩,
       ⟨.write (deviceAddress false false false) [0x00#8, 0x11#8], .err ⟨7⟩⟩] := ⟨rfl, rfl, rfl⟩

/-- The first part of BookkeepingIsWrittenOnlyOnSuccess: the move of DONE of a READ_BYTE changes LASTR. -/
theorem witness_BookkeepingIsWrittenOnlyOnSuccess :
    (match moveOf (.readByte 0x1FF#32) { bound [] with seq := .done, pending := some (succeeded 0#32 [0#8]) } with
      | .next t => t.lastR
      | .fault _ => 0#9
      | .refused _ => 0#9) = 0x1FF#9 ∧ (bound []).lastR ≠ 0x1FF#9 := by decide

theorem witness_AnErrorLeavesTheHandleRegisters :
    (bound []).seq = .idle ∧
    exec (.readByte 0x200#32) (bound []) = .next (ran (.readByte 0x200#32) (bound [])) ∧
    (ran (.readByte 0x200#32) (bound [])).responses = (bound []).responses ++ [failed .addressOutOfRange none] ∧
    (failed .addressOutOfRange none).status ≠ .ok := by
  exact ⟨rfl, rfl, by decide, by decide⟩

/-- CommandsWriteOnlyTheirRegisters: a command of each shape answers next. -/
theorem witness_CommandsWriteOnlyTheirRegisters :
    exec (.writeByte 0#32 1#8) (bound [gives [], gives []]) = .next (ran (.writeByte 0#32 1#8) (bound [gives [], gives []])) ∧
    exec (.readArray 0#32 1#32) (bound [gives []]) = .next (ran (.readArray 0#32 1#32) (bound [gives []])) ∧
    dataAddress (.prevReadAddr) = none ∧ exec .prevReadAddr (bound []) = .next (ran .prevReadAddr (bound [])) :=
  ⟨rfl, rfl, rfl, rfl⟩

theorem witness_NoExchangeWithoutAHandle :
    unbound.seq = .idle ∧ unbound.bound = false ∧
    exec (.writeByte 0#32 1#8) unbound = .next (ran (.writeByte 0#32 1#8) unbound) := ⟨rfl, rfl, rfl⟩

/-- The state before the first of two READ_BYTEs that succeed. -/
def twice : State := bound [gives [], gives [5#8], gives [], gives [5#8]]

theorem witness_RepeatedReadByteChangesNothingMore :
    twice.seq = .idle ∧ twice.bus = none ∧ exec (.readByte 5#32) twice = .next (ran (.readByte 5#32) twice) ∧
    (ran (.readByte 5#32) twice).responses = twice.responses ++ [succeeded 5#32 [5#8]] ∧
    exec (.readByte 5#32) (ran (.readByte 5#32) twice) = .next (ran (.readByte 5#32) (ran (.readByte 5#32) twice)) ∧
    (ran (.readByte 5#32) (ran (.readByte 5#32) twice)).responses =
      (ran (.readByte 5#32) twice).responses ++ [succeeded 5#32 [5#8]] := by
  exact ⟨rfl, rfl, rfl, by decide, rfl, by decide⟩

/-- SequencerMovesAlongThePath: a move that goes on, one that ends and one that fails. -/
theorem witness_SequencerMovesAlongThePath :
    (match moveOf (.readByte 0x1FF#32) { bound [] with seq := .check } with
      | .next t => t.seq | .fault _ => .idle | .refused _ => .idle) = .presel ∧
    (match moveOf (.readByte 0x1FF#32) { bound [] with seq := .done, pending := some (succeeded 0#32 [0#8]) } with
      | .next t => t.seq | .fault _ => .check | .refused _ => .check) = .idle ∧
    (match moveOf (.readByte 0x200#32) { bound [] with seq := .check } with
      | .next t => t.seq | .fault _ => .idle | .refused _ => .idle) = .done := by decide

/-- A state that waits for the answer to a page-select pre-write. -/
def waiting : State :=
  { bound [] with
    seq := .presel
    cmd := encode (.readByte 0x1FF#32)
    bus := some (.write (pageSelect 0x1FF#32) Config.preselFill) }

theorem waiting_consistent : Consistent waiting where
  onPath := by decide
  busIsCommands := rfl
  busWhileWaiting := fun _ => rfl
  pendingInDone := by decide
  checked := fun _ => ⟨rfl, by show (0x1FF#32).toNat < 512; decide⟩
  multiple := fun a n p _ h => by cases h
  handle := fun _ => ⟨false, false, false, rfl⟩
  pendingFormed := fun r h => by cases h
  responsesFormed := fun r h => by cases h
  traceFormed := fun x h => by cases h

/-- The same state when an Err comes, and when two answers come. -/
def waitingErr : State := { waiting with answers := [.err ⟨7⟩] }

theorem waitingErr_consistent : Consistent waitingErr :=
  { waiting_consistent with }

def waitingOk : State := { waiting with answers := [gives [], .err ⟨7⟩] }

theorem waitingOk_consistent : Consistent waitingOk :=
  { waiting_consistent with }

/-- AFailedExchangeEndsTheCommand and BookkeepingIsWrittenOnlyOnSuccess, from a waiting state: the outstanding exchange fails, and
the one after it does. -/
theorem witness_failed_exchange_after_waiting :
    Consistent waitingErr ∧ waitingErr.seq.waiting = true ∧ waitingErr.answers = .err ⟨7⟩ :: [] ∧
    Consistent waitingOk ∧ waitingOk.seq.waiting = true ∧
    exec (decode waitingOk.cmd) waitingOk = .next (ran (decode waitingOk.cmd) waitingOk) ∧
    settled waitingOk (ran (decode waitingOk.cmd) waitingOk) =
      [⟨.write (pageSelect 0x1FF#32) Config.preselFill, .ok []⟩,
       ⟨.writeRead (deviceAddress false false false) [0xFF#8] 1, .err ⟨7⟩⟩] :=
  ⟨waitingErr_consistent, rfl, rfl, waitingOk_consistent, rfl, rfl, rfl⟩

/-- SequencerMovesAlongThePath: a waiting state that takes an Ok, and one that takes an Err. -/
theorem witness_sequencer_after_waiting :
    (match moveOf (.readByte 0x1FF#32) waitingOk with
      | .next t => (t.seq, t.answers) | .fault _ => (.idle, []) | .refused _ => (.idle, [])) = (.xfer, [.err ⟨7⟩]) ∧
    (match moveOf (.readByte 0x1FF#32) waitingErr with
      | .next t => (t.seq, t.answers) | .fault _ => (.idle, []) | .refused _ => (.idle, [])) = (.done, []) := by decide

/-- AWaitingCommandGoesOn: a command that waits at once, and one that waits after an answer. -/
theorem witness_AWaitingCommandGoesOn :
    exec (.readByte 0#32) (bound []) = .next (ran (.readByte 0#32) (bound [])) ∧
    (ran (.readByte 0#32) (bound [])).seq.waiting = true ∧
    exec (.readByte 0#32) (bound [gives []]) = .next (ran (.readByte 0#32) (bound [gives []])) ∧
    (ran (.readByte 0#32) (bound [gives []])).seq.waiting = true := by
  exact ⟨rfl, by decide, rfl, by decide⟩

/-- AStepRunsTheDecodedCommand: idle with a command, idle without, and a command in flight. -/
theorem witness_AStepRunsTheDecodedCommand :
    (bound []).resetIn = none ∧ (bound []).seq = .idle ∧ (bound []).host = [] ∧
    (placeCommand (encode .release) (bound [])).host = encode .release :: [] ∧
    (placeCommand (encode .release) (bound [])).seq = .idle ∧ waiting.resetIn = none ∧ waiting.seq ≠ .idle := by
  exact ⟨rfl, rfl, rfl, rfl, rfl, rfl, by decide⟩

/-- WithoutAnAnswerTheCoreWaits and TheCommandInFlightIgnoresTheHost. -/
theorem witness_waiting :
    Consistent waiting ∧ waiting.seq.waiting = true ∧ waiting.answers = [] ∧ waiting.resetIn = none ∧ waiting.seq ≠ .idle :=
  ⟨waiting_consistent, rfl, rfl, rfl, by decide⟩

theorem witness_ResetLeavesNoHandle :
    dataAddress (.writeArray 0#32 2#32 count16) ≠ none ∧ dataAddress (.readByte 0#32) ≠ none := by decide

/-- ResetEndsTheCommandInFlight: a strike with an exchange in progress, and one with none. -/
theorem witness_ResetEndsTheCommandInFlight :
    advance 0 { waiting with resetIn := some ⟨0, .performed⟩ } = .next { waiting with resetIn := some ⟨0, .performed⟩ } ∧
    waiting.bus = some (.write (pageSelect 0x1FF#32) Config.preselFill) ∧
    advance 2 { unbound with resetIn := some ⟨2, .performed⟩ } = .next { unbound with resetIn := some ⟨2, .performed⟩ } ∧
    unbound.bus = none := ⟨rfl, rfl, rfl, rfl⟩

/-- EveryStepKeepsConsistency and ConsistentRunsNeverStop: a consistent state with a command in flight, and its step. -/
theorem witness_consistent_step : Consistent waiting ∧ step waiting = .next waiting := ⟨waiting_consistent, rfl⟩

theorem witness_DeviceMemoryStaysCanonical :
    (benchWith []).dev.mem.wf ∧ (benchWith []).step = .next (benchWith []) := ⟨by decide, rfl⟩

theorem witness_AWrittenByteReadsBack :
    ∃ b : Bench, b.core.seq = .idle ∧ b.core.bound = true ∧ b.core.bus = none ∧ b.core.answers = [] ∧ b.core.resetIn = none ∧
      b.dev.mem.wf ∧ b.dev.addr = b.core.devAddr ∧ b.dev.addr ≠ Config.pageFn ∧ b.dev.addr ≠ Config.pageFn ||| 1#7 ∧
      b.core.host = encode (.writeByte 0x1FF#32 0xA5#8) :: encode (.readByte 0x1FF#32) :: encode .prevWriteAddr ::
        encode .prevReadAddr :: [] ∧ (0x1FF#32).toNat < 512 :=
  ⟨benchWith [.writeByte 0x1FF#32 0xA5#8, .readByte 0x1FF#32, .prevWriteAddr, .prevReadAddr],
    rfl, rfl, rfl, rfl, rfl, by decide, rfl, otherAddress_ne.1, otherAddress_ne.2, rfl, by decide⟩

theorem witness_AWrittenArrayReadsBack :
    ∃ b : Bench, b.core.seq = .idle ∧ b.core.bound = true ∧ b.core.bus = none ∧ b.core.answers = [] ∧ b.core.resetIn = none ∧
      b.dev.mem.wf ∧ b.dev.addr = b.core.devAddr ∧ b.dev.addr ≠ Config.pageFn ∧ b.dev.addr ≠ Config.pageFn ||| 1#7 ∧
      b.core.host = encode (.writeArray 0x1EF#32 16#32 count16) :: encode (.readArray 0x1EF#32 16#32) :: [] ∧
      (0x1EF#32).toNat < 512 ∧ (16#32).toNat ∈ [2, 4, 8, 16] ∧ windowPasses 0x1EF#32 16#32 :=
  ⟨benchWith [.writeArray 0x1EF#32 16#32 count16, .readArray 0x1EF#32 16#32],
    rfl, rfl, rfl, rfl, rfl, by decide, rfl, otherAddress_ne.1, otherAddress_ne.2, rfl, by decide, by decide,
    witness_array_commands.2.2.1⟩

theorem witness_ReadArrayReturnsTheDevicesBytes :
    ∃ b : Bench, b.core.seq = .idle ∧ b.core.bound = true ∧ b.core.bus = none ∧ b.core.answers = [] ∧ b.core.resetIn = none ∧
      b.dev.addr = b.core.devAddr ∧ b.dev.addr ≠ Config.pageFn ∧ b.dev.addr ≠ Config.pageFn ||| 1#7 ∧
      b.core.host = encode (.readArray 0x080#32 127#32) :: [] ∧ (0x080#32).toNat < 512 ∧ windowPasses 0x080#32 127#32 :=
  ⟨benchWith [.readArray 0x080#32 127#32],
    rfl, rfl, rfl, rfl, rfl, rfl, otherAddress_ne.1, otherAddress_ne.2, rfl, by decide, witness_array_commands.1⟩

end Sys2Proof.Tests
end

section
/-! SUPPORT. The configuration bits of the device address (R25, R93), and what CONSTRUCT comes to where the gate accepts it
(R200). -/

namespace Sys2Proof.Machine

/-- A configuration bit is the one bit of its position. -/
theorem cfgBit_getLsbD (b : Bool) (k : Nat) {j : Nat} (hj : j < 7) :
    (cfgBit b k).getLsbD j = (decide (j = k) && b) := by
  rw [cfgBit, BitVec.getLsbD_shiftLeft, BitVec.getLsbD_setWidth, BitVec.getLsbD_ofBool]
  by_cases hk : j < k
  · simp [hk, Nat.ne_of_lt hk]
  · have he : (j - k = 0) ↔ j = k := by omega
    simp [hj, hk, he]
    omega

/-- Every bit of a device address (R93). -/
theorem deviceAddress_getLsbD (a2 a1 a0 : Bool) {j : Nat} (hj : j < 7) :
    (deviceAddress a2 a1 a0).getLsbD j =
      (Config.rwFn.getLsbD j || (decide (j = 2) && a2) || (decide (j = 1) && a1) || (decide (j = 0) && a0)) := by
  simp only [deviceAddress, BitVec.getLsbD_or, cfgBit_getLsbD _ _ hj]

/-- The bits above the configuration bits are RW_FN's. -/
theorem deviceAddress_high (a2 a1 a0 : Bool) :
    (deviceAddress a2 a1 a0).extractLsb' 3 4 = Config.rwFn.extractLsb' 3 4 := by
  apply BitVec.eq_of_getLsbD_eq
  intro j hj
  have h2 : 3 + j ≠ 2 := by omega
  have h1 : 3 + j ≠ 1 := by omega
  have h0 : 3 + j ≠ 0 := by omega
  simp only [BitVec.getLsbD_extractLsb', deviceAddress_getLsbD _ _ _ (show 3 + j < 7 by omega), h2, h1, h0,
    decide_false, Bool.false_and, Bool.or_false]

/-- CONSTRUCT without a handle binds one and answers OK (R200). -/
theorem exec_construct_unbound (a2 a1 a0 : Bool) {s : State} (hs : s.seq = .idle) (hb : s.bound = false) :
    exec (.construct a2 a1 a0) s =
      .next ((bindHandle (deviceAddress a2 a1 a0) s).endWith (succeeded 0#32 [])) := by
  have hc : checkConstruct (accept s) = finishOk 0#32 [] (accept s) := by simp [checkConstruct, hb]
  calc exec (.construct a2 a1 a0) s
      = .next (deliver (okResponse 0#32 []) (bindHandle (deviceAddress a2 a1 a0) (checkConstruct (accept s)))) :=
        runCommand_short hs (by rw [hc]; rfl) (by rw [hc]; rfl)
    _ = .next ((bindHandle (deviceAddress a2 a1 a0) s).endWith (succeeded 0#32 [])) := by
        rw [hc, accept_of_idle hs]
        congr 1
        apply State.ext
        case seq => exact hs.symm
        all_goals rfl

/-- Settles O20: CONSTRUCT leaves R93's address, and the constraint on RW_FN frees its low three bits for A2, A1, A0. -/
theorem configurationBitsAreInTheDeviceAddress : Obligations.ConfigurationBitsAreInTheDeviceAddress := by
  intro a2 a1 a0 s hs hb
  refine ⟨_, exec_construct_unbound a2 a1 a0 hs hb, ?_⟩
  show (deviceAddress a2 a1 a0).getLsbD 2 = a2 ∧ (deviceAddress a2 a1 a0).getLsbD 1 = a1 ∧
    (deviceAddress a2 a1 a0).getLsbD 0 = a0 ∧ (deviceAddress a2 a1 a0).extractLsb' 3 4 = Config.rwFn.extractLsb' 3 4
  refine ⟨?_, ?_, ?_, deviceAddress_high a2 a1 a0⟩ <;>
    rw [deviceAddress_getLsbD _ _ _ (by decide), rwFn_low (by decide)] <;> simp

end Sys2Proof.Machine
end

section
/-! SUPPORT. The frame of the commands (10_state.md section 6): which fields each operation may change, then each move, then
each command. -/

namespace Sys2Proof.Machine

/-! ### Which commands an operation belongs to -/

/-- Only a data command's path visits a state that waits for the transport (R150). -/
theorem dataAddress_ne_none_of_waiting {i : Instr} {q : Seq} (hq : q ∈ pathOf i) (hw : q.waiting = true) :
    dataAddress i ≠ none := by
  cases i <;> simp only [dataAddress, ne_eq, reduceCtorEq, not_false_eq_true, not_true_eq_false]
  all_goals
    simp only [pathOf, List.mem_cons, List.not_mem_nil, or_false] at hq
    rcases hq with rfl | rfl | rfl <;> simp [Seq.waiting] at hw

/-- Only a data command goes on with an Ok answer. -/
theorem GoesOn.dataAddress_ne_none {i : Instr} {q : Seq} {rx : Vector Byte 127} {u v : State}
    (h : GoesOn i q rx u v) : dataAddress i ≠ none := by
  cases h <;> simp [dataAddress]

theorem readsArray_eq_false {i : Instr} (hb : ∀ a, i ≠ .readByte a) (ha : ∀ a n, i ≠ .readArray a n) :
    readsArray i = false := by
  cases i <;> simp [readsArray] at hb ha ⊢

/-! ### The frame of an operation -/

/-- From s to t nothing has changed but what 10_state.md section 6 lets the command i change; the trace and the responses have
only grown (R16, R34). -/
structure Framed (i : Instr) (s t : State) : Prop where
  cmd : t.cmd = s.cmd
  host : t.host = s.host
  resetIn : t.resetIn = s.resetIn
  trace : s.trace <+: t.trace
  responses : s.responses <+: t.responses
  bound : (∀ a2 a1 a0, i ≠ .construct a2 a1 a0) → i ≠ .release → t.bound = s.bound
  devAddr : (∀ a2 a1 a0, i ≠ .construct a2 a1 a0) → t.devAddr = s.devAddr
  lastW : (∀ a2 a1 a0, i ≠ .construct a2 a1 a0) → (∀ a d, i ≠ .writeByte a d) → (∀ a n p, i ≠ .writeArray a n p) →
    t.lastW = s.lastW
  lastR : (∀ a2 a1 a0, i ≠ .construct a2 a1 a0) → (∀ a, i ≠ .readByte a) → (∀ a n, i ≠ .readArray a n) →
    t.lastR = s.lastR
  txBuf : (∀ a d, i ≠ .writeByte a d) → (∀ a n p, i ≠ .writeArray a n p) → t.txBuf = s.txBuf
  rxBuf : (∀ a, i ≠ .readByte a) → (∀ a n, i ≠ .readArray a n) → t.rxBuf = s.rxBuf ∧ t.freeCtr = s.freeCtr
  dummy : (∀ a n, i ≠ .readArray a n) → t.dummy = s.dummy
  noTraffic : dataAddress i = none → t.trace = s.trace ∧ t.answers = s.answers ∧ t.bus = s.bus

theorem Framed.refl (i : Instr) (s : State) : Framed i s s := by
  constructor <;> simp

theorem Framed.trans {i : Instr} {s t u : State} (h : Framed i s t) (k : Framed i t u) : Framed i s u where
  cmd := k.cmd.trans h.cmd
  host := k.host.trans h.host
  resetIn := k.resetIn.trans h.resetIn
  trace := h.trace.trans k.trace
  responses := h.responses.trans k.responses
  bound hc hr := (k.bound hc hr).trans (h.bound hc hr)
  devAddr hc := (k.devAddr hc).trans (h.devAddr hc)
  lastW hc hb ha := (k.lastW hc hb ha).trans (h.lastW hc hb ha)
  lastR hc hb ha := (k.lastR hc hb ha).trans (h.lastR hc hb ha)
  txBuf hb ha := (k.txBuf hb ha).trans (h.txBuf hb ha)
  rxBuf hb ha := ⟨(k.rxBuf hb ha).1.trans (h.rxBuf hb ha).1, (k.rxBuf hb ha).2.trans (h.rxBuf hb ha).2⟩
  dummy ha := (k.dummy ha).trans (h.dummy ha)
  noTraffic hd := by
    obtain ⟨ht, ha, hb⟩ := h.noTraffic hd
    obtain ⟨kt, ka, kb⟩ := k.noTraffic hd
    exact ⟨kt.trans ht, ka.trans ha, kb.trans hb⟩

theorem accept_framed (i : Instr) (s : State) : Framed i s (accept s) := by
  constructor <;> simp

theorem raise_framed (i : Instr) (k : ErrKind) (s : State) : Framed i s (raise k s) := by
  constructor <;> simp

/-- Only a command that reads the array draws free bytes into RXBUF (R160). -/
theorem freeRx_framed {i : Instr} (hi : readsArray i = true) (s : State) : Framed i s (freeRx s) := by
  constructor
  case rxBuf => intro hb ha; rw [readsArray_eq_false hb ha] at hi; cases hi
  all_goals simp

theorem raiseOf_framed (i : Instr) (k : ErrKind) (s : State) : Framed i s (raiseOf i k s) := by
  unfold raiseOf
  split
  next hi => exact (freeRx_framed hi s).trans (raise_framed i k (freeRx s))
  next => exact raise_framed i k s

theorem finishOk_framed (i : Instr) (v : Word) (r : List Byte) (s : State) : Framed i s (finishOk v r s) := by
  constructor <;> simp

theorem issue_framed {i : Instr} (hd : dataAddress i ≠ none) (q : Seq) (x : Exchange) (s : State) :
    Framed i s (issue q x s) := by
  constructor <;> simp [hd]

theorem settle_framed {i : Instr} (hd : dataAddress i ≠ none) (x : Exchange) (e : Ending) (rest : List Answer)
    (s : State) : Framed i s (settle x e rest s) := by
  constructor <;> simp [hd]

theorem deliver_framed (i : Instr) (r : Response) (s : State) : Framed i s (deliver r s) := by
  constructor <;> simp

theorem sendWriteArray_framed (a n : Word) (p : Vector Byte 16) (s : State) :
    Framed (.writeArray a n p) s (sendWriteArray a n p s) := by
  constructor <;> simp [sendWriteArray, dataAddress]

/-- What a command writes at its end is what R34's table gives it. -/
theorem commitOf_framed (i : Instr) (s : State) : Framed i s (commitOf i s) := by
  cases i <;> constructor <;> simp [commitOf]

/-- What follows an Ok answer writes the command's own buffers. -/
theorem GoesOn.framed {i : Instr} {q : Seq} {rx : Vector Byte 127} {u v : State} (h : GoesOn i q rx u v) :
    Framed i u v := by
  cases h <;> constructor <;> simp [sendWriteByte, dataAddress]

/-! ### The frame of a move and of a command -/

theorem Moved.framed {i : Instr} {s t : State} (h : Moved i s t) : Framed i s t := by
  cases h with
  | stays h => exact .refl i s
  | refusedCheck hq hg => exact raise_framed i _ s
  | failsCheck k hq hk he hg => exact raiseOf_framed i k s
  | answersAtOnce v hq hd hg => exact finishOk_framed i v [] s
  | preselects a hq hb hc hd => exact issue_framed (by simp [hd]) _ _ s
  | transportFails x e rest hw hq hb ha =>
    exact (settle_framed (dataAddress_ne_none_of_waiting hq hw) x _ rest s).trans (raiseOf_framed i _ _)
  | transportAnswers x rx rest t q hs hw hb ha hg =>
    exact (settle_framed hg.dataAddress_ne_none x _ rest s).trans hg.framed
  | failsMult a n p hq hi hn => exact raise_framed i _ s
  | sends a n p hq hi hn => subst hi; exact sendWriteArray_framed a n p s
  | delivers r hq hp =>
    split
    next => exact (commitOf_framed i s).trans (deliver_framed i r _)
    next => exact deliver_framed i r s

/-- The frame of a command, from wherever SEQ stands. -/
theorem exec_framed {i : Instr} {s t : State} (h : exec i s = .next t) : Framed i s t :=
  exec_keeps (P := Framed i s) (fun u hu => hu.trans (accept_framed i u)) (fun _ _ hu hm => hu.trans hm.framed)
    (.refl i s) h

/-- Settles O38, by the frame that every move keeps. -/
theorem commandsWriteOnlyTheirRegisters : Obligations.CommandsWriteOnlyTheirRegisters := by
  intro i s t h
  have hf := exec_framed h
  exact ⟨⟨hf.cmd, hf.host, hf.resetIn⟩, ⟨hf.trace, hf.responses⟩, hf.bound, hf.devAddr, hf.lastW, hf.lastR, hf.txBuf,
    hf.rxBuf, hf.dummy, hf.noTraffic⟩

end Sys2Proof.Machine
end

section
/-! SUPPORT. Without a handle a command ends in CHECK (R33): its run never reaches a state that issues an exchange. -/

namespace Sys2Proof.Machine

theorem raiseOf_noTraffic (i : Instr) (k : ErrKind) (s : State) :
    (raiseOf i k s).trace = s.trace ∧ (raiseOf i k s).bus = s.bus ∧ (raiseOf i k s).answers = s.answers := by
  unfold raiseOf; split <;> simp

theorem commitOf_noTraffic (i : Instr) (s : State) :
    (commitOf i s).trace = s.trace ∧ (commitOf i s).bus = s.bus ∧ (commitOf i s).answers = s.answers := by
  cases i <;> simp [commitOf]

/-- A command that started from s without a handle and has not touched the bus: it is in CHECK, still without a handle, or
past it on the way of an error or of a command that issues no exchange. -/
structure OffTheBus (s t : State) : Prop where
  trace : t.trace = s.trace
  bus : t.bus = s.bus
  answers : t.answers = s.answers
  notWaiting : t.seq.waiting = false
  notMult : t.seq ≠ .mult
  unboundInCheck : t.seq = .check → t.bound = false

theorem Moved.offTheBus {i : Instr} {s t u : State} (ht : OffTheBus s t) (h : Moved i t u) : OffTheBus s u := by
  obtain ⟨htr, hbus, hans, hnw, hnm, hub⟩ := ht
  cases h with
  | stays h => exact ⟨htr, hbus, hans, hnw, hnm, hub⟩
  | refusedCheck hq hg => exact ⟨htr, hbus, hans, rfl, by simp, by simp⟩
  | failsCheck k hq hk he hg =>
    obtain ⟨ktr, kbus, kans⟩ := raiseOf_noTraffic i k t
    exact ⟨ktr.trans htr, kbus.trans hbus, kans.trans hans, by simp [Seq.waiting], by simp, by simp⟩
  | answersAtOnce v hq hd hg => exact ⟨htr, hbus, hans, rfl, by simp, by simp⟩
  | preselects a hq hb hc hd => rw [hub hq] at hb; cases hb
  | transportFails x e rest hw hq hb ha => rw [hnw] at hw; cases hw
  | transportAnswers x rx rest v q hs hw hb ha hg => rw [hnw] at hw; cases hw
  | failsMult a n p hq hi hn => exact absurd hq hnm
  | sends a n p hq hi hn => exact absurd hq hnm
  | delivers r hq hp =>
    obtain ⟨ktr, kbus, kans⟩ := commitOf_noTraffic i t
    split
    next => exact ⟨ktr.trans htr, kbus.trans hbus, kans.trans hans, rfl, by simp, by simp⟩
    next => exact ⟨htr, hbus, hans, rfl, by simp, by simp⟩

/-- Settles O39: from IDLE without a handle every move stays off the bus. -/
theorem noExchangeWithoutAHandle : Obligations.NoExchangeWithoutAHandle := by
  intro i s t hs hb h
  have hstart : OffTheBus s (accept s) :=
    ⟨by simp, by simp, by simp, by simp [hs, Seq.waiting], by simp [hs], by simp [hb]⟩
  rw [exec_eq_runCommand, runCommand] at h
  obtain ⟨htr, hbus, hans, -, -, -⟩ :=
    runMoves_keeps (fun u v hu hv => (moved_of_moveOf hv).offTheBus hu) 5 hstart h
  exact ⟨htr, hbus, hans⟩

end Sys2Proof.Machine
end

section
/-! SUPPORT. The host's list plays no part in a move of the sequencer: every operation commutes with replacing it (R28, R68). -/

namespace Sys2Proof.Machine

open Function (Semiconj Commute)

/-! ### Runs of moves -/

/-- A run of moves commutes with every change of the state with which its move commutes. -/
theorem runMoves_semiconj {m : State → Result} {g : State → State} (hm : Semiconj m g (mapNext g)) (k : Nat) :
    Semiconj (runMoves m k) g (mapNext g) := by
  induction k with
  | zero => exact fun _ => rfl
  | succ k ih =>
    intro s
    rw [runMoves_succ, runMoves_succ, hm s]
    cases m s with
    | next u => exact ih u
    | fault e => rfl
    | refused e => rfl

/-! ### The host's list replaced -/

/-- The state with what the host has laid ready replaced. -/
def State.withHost (l : List Descriptor) (s : State) : State := { s with host := l }

@[simp] theorem withHost_seq (l : List Descriptor) (s : State) : (s.withHost l).seq = s.seq := rfl
@[simp] theorem withHost_bound (l : List Descriptor) (s : State) : (s.withHost l).bound = s.bound := rfl
@[simp] theorem withHost_bus (l : List Descriptor) (s : State) : (s.withHost l).bus = s.bus := rfl
@[simp] theorem withHost_pending (l : List Descriptor) (s : State) : (s.withHost l).pending = s.pending := rfl

/-- An outcome with the host's list of its state replaced. -/
abbrev resultWithHost (l : List Descriptor) : Result → Result := mapNext (State.withHost l)

/-! ### The shared operations -/

theorem accept_withHost (l : List Descriptor) : Commute accept (State.withHost l) := by
  intro s
  by_cases hs : s.seq = .idle
  · rw [accept_of_idle hs, accept_of_idle (s := s.withHost l) hs]; rfl
  · rw [accept_of_not_idle hs, accept_of_not_idle (s := s.withHost l) hs]

theorem raise_withHost (l : List Descriptor) (k : ErrKind) : Commute (raise k) (State.withHost l) := fun _ => rfl

theorem raiseRead_withHost (l : List Descriptor) (k : ErrKind) : Commute (raiseRead k) (State.withHost l) := fun _ => rfl

theorem commitOf_withHost (l : List Descriptor) (i : Instr) : Commute (commitOf i) (State.withHost l) := by
  intro s; cases i <;> rfl

theorem needHandle_withHost (l : List Descriptor) (s : State) {r r' : Result} (hr : r' = resultWithHost l r) :
    needHandle (s.withHost l) r' = resultWithHost l (needHandle s r) := by
  subst hr
  cases hb : s.bound <;> simp only [needHandle, withHost_bound, hb] <;> rfl

theorem dataCheck_withHost {α : Type} {l : List Descriptor} {fail : ErrKind → State → State}
    (hf : ∀ k, Commute (fail k) (State.withHost l)) (c : Except ErrKind α) (s : State) {go go' : α → Result}
    (hg : ∀ v, go' v = resultWithHost l (go v)) :
    dataCheck fail c (s.withHost l) go' = resultWithHost l (dataCheck fail c s go) := by
  cases c with
  | ok v => exact hg v
  | error k =>
    cases k
    case addressConversionFailure => rfl
    all_goals exact congrArg Host.Outcome.next (hf _ s)

theorem await_withHost {l : List Descriptor} {fail : ErrKind → State → State}
    (hf : ∀ k, Commute (fail k) (State.withHost l)) {go : Vector Byte 127 → State → Result}
    (hg : ∀ rx, Semiconj (go rx) (State.withHost l) (resultWithHost l)) (s : State) :
    await fail (s.withHost l) go = resultWithHost l (await fail s go) := by
  cases hb : s.bus with
  | none => simp [await, hb, mapNext]
  | some x =>
    have hb' : (s.withHost l).bus = some x := hb
    match ha : s.answers with
    | [] => rw [await_silent hb ha, await_silent hb' ha]; rfl
    | .err e :: rest =>
      rw [await_err hb ha, await_err hb' ha]
      exact congrArg Host.Outcome.next (hf _ (settle x (.err e) rest s))
    | .ok rx :: rest => rw [await_ok hb ha, await_ok hb' ha]; exact hg rx (settle x _ rest s)

theorem doneMove_withHost {l : List Descriptor} {commit : State → State} (hc : Commute commit (State.withHost l)) :
    Semiconj (doneMove commit) (State.withHost l) (resultWithHost l) := by
  intro s
  cases hp : s.pending with
  | none => simp [doneMove, hp, mapNext]
  | some r =>
    rw [doneMove_of_pending hp, doneMove_of_pending (s := s.withHost l) hp, hc s]
    split <;> rfl

theorem shortMove_withHost {l : List Descriptor} {check commit : State → State}
    (hk : Commute check (State.withHost l)) (hc : Commute commit (State.withHost l)) :
    Semiconj (shortMove check commit) (State.withHost l) (resultWithHost l) := by
  intro s
  cases hq : s.seq <;> simp only [shortMove, withHost_seq, hq]
  case check => exact congrArg Host.Outcome.next (hk s)
  case done => exact doneMove_withHost hc s
  all_goals rfl

/-! ### The checks -/

theorem checkConstruct_withHost (l : List Descriptor) : Commute checkConstruct (State.withHost l) := by
  intro s
  cases hb : s.bound <;> simp only [checkConstruct, withHost_bound, hb] <;> rfl

theorem checkRelease_withHost (l : List Descriptor) : Commute checkRelease (State.withHost l) := by
  intro s
  cases hb : s.bound <;> simp only [checkRelease, withHost_bound, hb] <;> rfl

theorem checkPrevWriteAddr_withHost (l : List Descriptor) : Commute checkPrevWriteAddr (State.withHost l) := by
  intro s
  cases hb : s.bound <;> simp only [checkPrevWriteAddr, withHost_bound, hb] <;> rfl

theorem checkPrevReadAddr_withHost (l : List Descriptor) : Commute checkPrevReadAddr (State.withHost l) := by
  intro s
  cases hb : s.bound <;> simp only [checkPrevReadAddr, withHost_bound, hb] <;> rfl

theorem checkValidateBounds_withHost (l : List Descriptor) (a : Word) :
    Commute (checkValidateBounds a) (State.withHost l) := by
  intro s
  unfold checkValidateBounds
  split <;> rfl

theorem checkConvert_withHost (l : List Descriptor) (a : Word) : Commute (checkConvert a) (State.withHost l) := by
  intro s
  unfold checkConvert
  split <;> rfl

theorem checkValidateWindow_withHost (l : List Descriptor) (a n : Word) :
    Commute (checkValidateWindow a n) (State.withHost l) := by
  intro s
  unfold checkValidateWindow
  split <;> rfl

theorem checkWriteByte_withHost (l : List Descriptor) (a : Word) :
    Semiconj (checkWriteByte a) (State.withHost l) (resultWithHost l) := fun s =>
  needHandle_withHost l s <| dataCheck_withHost (raise_withHost l) _ s fun _ =>
    dataCheck_withHost (raise_withHost l) _ s fun _ => rfl

theorem checkReadByte_withHost (l : List Descriptor) (a : Word) :
    Semiconj (checkReadByte a) (State.withHost l) (resultWithHost l) := fun s =>
  needHandle_withHost l s <| dataCheck_withHost (raiseRead_withHost l) _ s fun _ =>
    dataCheck_withHost (raiseRead_withHost l) _ s fun _ => rfl

theorem checkReadArray_withHost (l : List Descriptor) (a n : Word) :
    Semiconj (checkReadArray a n) (State.withHost l) (resultWithHost l) := fun s =>
  needHandle_withHost l s <| dataCheck_withHost (raiseRead_withHost l) _ s fun _ =>
    dataCheck_withHost (raiseRead_withHost l) _ s fun _ =>
      dataCheck_withHost (raiseRead_withHost l) _ s fun _ => rfl

theorem checkWriteArray_withHost (l : List Descriptor) (a n : Word) :
    Semiconj (checkWriteArray a n) (State.withHost l) (resultWithHost l) := by
  intro s
  apply needHandle_withHost
  split
  · rfl
  · exact dataCheck_withHost (raise_withHost l) _ s fun _ => dataCheck_withHost (raise_withHost l) _ s fun _ =>
      dataCheck_withHost (raise_withHost l) _ s fun _ => rfl

theorem multWriteArray_withHost (l : List Descriptor) (a n : Word) (p : Vector Byte 16) :
    Commute (multWriteArray a n p) (State.withHost l) := by
  intro s
  unfold multWriteArray
  split <;> rfl

/-! ### A move, a command and a step -/

/-- No move of any command looks at the host's list. -/
theorem moveOf_withHost (l : List Descriptor) (i : Instr) :
    Semiconj (moveOf i) (State.withHost l) (resultWithHost l) := by
  have hc := commitOf_withHost l i
  intro s
  cases i with
  | construct a2 a1 a0 => exact shortMove_withHost (checkConstruct_withHost l) hc s
  | release => exact shortMove_withHost (checkRelease_withHost l) hc s
  | prevWriteAddr => exact shortMove_withHost (checkPrevWriteAddr_withHost l) hc s
  | prevReadAddr => exact shortMove_withHost (checkPrevReadAddr_withHost l) hc s
  | validateBounds a => exact shortMove_withHost (checkValidateBounds_withHost l a) hc s
  | convert a => exact shortMove_withHost (checkConvert_withHost l a) hc s
  | validateWindow a n => exact shortMove_withHost (checkValidateWindow_withHost l a n) hc s
  | illegal h => exact shortMove_withHost (raise_withHost l _) hc s
  | writeByte a d =>
    cases hq : s.seq <;> simp only [moveOf, moveWriteByte, withHost_seq, hq]
    case check => exact checkWriteByte_withHost l a s
    case presel => exact await_withHost (raise_withHost l) (fun _ _ => rfl) s
    case xfer => exact await_withHost (raise_withHost l) (fun _ _ => rfl) s
    case done => exact doneMove_withHost hc s
    all_goals rfl
  | readByte a =>
    cases hq : s.seq <;> simp only [moveOf, moveReadByte, withHost_seq, hq]
    case check => exact checkReadByte_withHost l a s
    case presel => exact await_withHost (raiseRead_withHost l) (fun _ _ => rfl) s
    case xfer => exact await_withHost (raiseRead_withHost l) (fun _ _ => rfl) s
    case done => exact doneMove_withHost hc s
    all_goals rfl
  | readArray a n =>
    cases hq : s.seq <;> simp only [moveOf, moveReadArray, withHost_seq, hq]
    case check => exact checkReadArray_withHost l a n s
    case presel => exact await_withHost (raiseRead_withHost l) (fun _ _ => rfl) s
    case dummy => exact await_withHost (raiseRead_withHost l) (fun _ _ => rfl) s
    case xfer => exact await_withHost (raiseRead_withHost l) (fun _ _ => rfl) s
    case done => exact doneMove_withHost hc s
    all_goals rfl
  | writeArray a n p =>
    cases hq : s.seq <;> simp only [moveOf, moveWriteArray, withHost_seq, hq]
    case check => exact checkWriteArray_withHost l a n s
    case presel => exact await_withHost (raise_withHost l) (fun _ _ => rfl) s
    case mult => exact congrArg Host.Outcome.next (multWriteArray_withHost l a n p s)
    case xfer => exact await_withHost (raise_withHost l) (fun _ _ => rfl) s
    case done => exact doneMove_withHost hc s
    all_goals rfl

/-- No command looks at the host's list, from wherever SEQ stands. -/
theorem exec_withHost (l : List Descriptor) (i : Instr) : Semiconj (exec i) (State.withHost l) (resultWithHost l) := by
  intro s
  rw [exec_eq_runCommand, exec_eq_runCommand, runCommand, runCommand, accept_withHost l s]
  exact runMoves_semiconj (moveOf_withHost l i) 5 (accept s)

/-- With a command in flight and no reset, a step goes on with the latched command (R28). -/
theorem step_of_inFlight {s : State} (hs : s.seq ≠ .idle) (hr : s.resetIn = none) :
    step s = exec (decode s.cmd) s := by
  simp [step, fetch, hs, hr]

/-- Settles O45: a step in flight is the latched command's, and no command looks at the host's list. -/
theorem theCommandInFlightIgnoresTheHost : Obligations.TheCommandInFlightIgnoresTheHost := by
  intro s later hs hr
  show step (s.withHost later) = resultWithHost later (step s)
  rw [step_of_inFlight hs hr, step_of_inFlight (s := s.withHost later) hs hr]
  exact exec_withHost later (decode s.cmd) s

end Sys2Proof.Machine
end

section
/-! SUPPORT. The address map of the linear space (R52, R53): an address of range is its page select and its offset, and every
pair of the two has its address. -/

namespace Sys2Proof.Machine

/-- Two addresses of range on one page select are in the same half of the linear space (R53, under `PAGE_FN[0] = 0`). -/
theorem pageSelect_inj {a b : Word} (ha : a.toNat < 512) (hb : b.toNat < 512) (h : pageSelect a = pageSelect b) :
    a.toNat < 256 ↔ b.toNat < 256 := by
  by_cases ha' : a.toNat < 256 <;> by_cases hb' : b.toNat < 256
  · exact iff_of_true ha' hb'
  · rw [pageSelect_low ha', pageSelect_high (by omega) hb] at h
    exact absurd h.symm pageFn_or_one_ne
  · rw [pageSelect_high (by omega) ha, pageSelect_low hb'] at h
    exact absurd h pageFn_or_one_ne
  · exact iff_of_false ha' hb'

/-- Conversion is one to one on the addresses of range. -/
theorem convert_inj {a b : Word} (ha : a.toNat < 512) (hb : b.toNat < 512) (h : convert a = convert b) : a = b := by
  rw [convert_ok ha, convert_ok hb] at h
  obtain ⟨hps, hoff⟩ := Prod.mk.inj (Except.ok.inj h)
  have hhalf := pageSelect_inj ha hb hps
  have hmod := congrArg BitVec.toNat hoff
  rw [inPageOffset_toNat, inPageOffset_toNat] at hmod
  exact BitVec.eq_of_toNat_eq (by omega)

/-- Offset `off` of page p is the linear address `256*p + off` (R52). -/
theorem exists_linearAddress {p : Nat} (hp : p < 2) (off : Byte) :
    ∃ a : Word, a.toNat = 256 * p + off.toNat ∧ inPageOffset a = off := by
  have hoff := off.isLt
  have hnat : (BitVec.ofNat 32 (256 * p + off.toNat)).toNat = 256 * p + off.toNat := by
    rw [BitVec.toNat_ofNat]; omega
  refine ⟨_, hnat, BitVec.eq_of_toNat_eq ?_⟩
  rw [inPageOffset_toNat, hnat]
  omega

/-- Every offset of both page selects is the conversion of an address of range. -/
theorem convert_surj {ps : BusAddr} (off : Byte) (hps : ps = Config.pageFn ∨ ps = Config.pageFn ||| 1#7) :
    ∃ a : Word, a.toNat < 512 ∧ convert a = .ok (ps, off) := by
  have hoff := off.isLt
  rcases hps with rfl | rfl
  · obtain ⟨a, hnat, heq⟩ := exists_linearAddress (p := 0) (by decide) off
    exact ⟨a, by omega, by rw [convert_ok (by omega), pageSelect_low (by omega), heq]⟩
  · obtain ⟨a, hnat, heq⟩ := exists_linearAddress (p := 1) (by decide) off
    exact ⟨a, by omega, by rw [convert_ok (by omega), pageSelect_high (by omega) (by omega), heq]⟩

/-- Settles O11: the page selects tell the halves apart and the offset is the address modulo 256. -/
theorem conversionIsABijection : Obligations.ConversionIsABijection :=
  ⟨fun _ _ => convert_inj, fun _ off hps => convert_surj off hps⟩

end Sys2Proof.Machine
end

section
/-! SUPPORT. A command that issues an exchange has passed its checks (R157), and what a passing window covers (R59). -/

namespace Sys2Proof.Machine

/-- CHECK leaves a command off the bus unless the command's checks pass. -/
theorem Moved.offTheBus_or_checksPass {i : Instr} {s t : State} (hq : s.seq = .check) (h : Moved i s t) :
    OffTheBus s t ∨ checksPass i := by
  cases h with
  | preselects a _ hb hc hd => exact .inr hc
  | refusedCheck _ hg => exact .inl ⟨rfl, rfl, rfl, rfl, by simp, by simp⟩
  | failsCheck k _ hk he hg =>
    obtain ⟨ktr, kbus, kans⟩ := raiseOf_noTraffic i k s
    exact .inl ⟨ktr, kbus, kans, by simp [Seq.waiting], by simp, by simp⟩
  | answersAtOnce v _ hd hg => exact .inl ⟨rfl, rfl, rfl, rfl, by simp, by simp⟩
  | stays h => simp [hq, Seq.waiting] at h
  | transportFails x e rest hw => simp [hq, Seq.waiting] at hw
  | transportAnswers x rx rest _ q hs hw => simp [hq, Seq.waiting] at hw
  | failsMult a n p hm => simp [hq] at hm
  | sends a n p hm => simp [hq] at hm
  | delivers r hm => simp [hq] at hm

/-- From IDLE a command issues an exchange only where its checks pass (R157). -/
theorem checksPass_of_issued {i : Instr} {s t : State} (hs : s.seq = .idle) (hb : s.bus = none)
    (h : exec i s = .next t) (hx : issued s t ≠ []) : checksPass i := by
  rw [exec_eq_runCommand, runCommand, runMoves_succ] at h
  obtain ⟨u, hu, ht⟩ := andThen_eq_next h
  rcases (moved_of_moveOf hu).offTheBus_or_checksPass (by simp [hs]) with hoff | hc
  · obtain ⟨htr, hbus, -, -, -, -⟩ := runMoves_keeps (fun _ _ hv hw => (moved_of_moveOf hw).offTheBus hv) 4 hoff ht
    exact absurd (by simp [issued, htr, hbus, hb]) hx
  · exact hc

/-- A window that passes stays in the quadrant of its first byte (R59). -/
theorem sameQuadrant_of_windowPasses {a n : Word} (hw : windowPasses a n) {k : Nat} (hk : k < n.toNat) :
    (a.toNat + k) / 128 = a.toNat / 128 := by
  rw [windowPasses, inPageOffset_toNat] at hw
  split at hw <;> omega

/-- Settles O31: an exchange means that the checks passed, the window's among them. -/
theorem arrayAccessesStayInTheirQuadrant : Obligations.ArrayAccessesStayInTheirQuadrant := by
  intro i a n s t hi hs hb h hx
  have hc := checksPass_of_issued hs hb h hx
  have hw : windowPasses a n := by
    rcases hi with rfl | ⟨p, rfl⟩
    · obtain ⟨-, hw⟩ := hc
      exact hw
    · obtain ⟨-, -, hw⟩ := hc
      exact hw
  exact ⟨hw, fun _ => sameQuadrant_of_windowPasses hw⟩

end Sys2Proof.Machine
end

section
/-! SUPPORT. What a command has issued, move by move (R97, R150): the exchanges of its table row up to the state SEQ is in. -/

namespace Sys2Proof.Machine

/-! ### The exchanges issued between two states -/

/-- An answer moves the outstanding exchange to the trace, and it stays the last one issued. -/
theorem issued_settle {s t : State} {x : Exchange} (htr : s.trace <+: t.trace) (hb : t.bus = some x) (e : Ending)
    (rest : List Answer) : issued s (settle x e rest t) = issued s t := by
  simp [issued, hb, List.drop_append_of_le_length htr.length_le]

/-- WRITE_BYTE's data write sends the offset and the byte (R97). -/
theorem sendWriteByte_eq (a : Word) (d : Byte) (s : State) :
    sendWriteByte a d s = issue .xfer (.write s.devAddr [inPageOffset a, d]) (loadTx (inPageOffset a) [d] s) := by
  have hm : txMessage 2 (loadTx (inPageOffset a) [d] s) = [inPageOffset a, d] := txMessage_loadTx _ [d] s (by simp)
  rw [sendWriteByte, hm, loadTx_devAddr, dataWriteExchange]

/-- WRITE_ARRAY's data write sends the offset and the payload's first n bytes (R97). -/
theorem sendWriteArray_eq (a : Word) {n : Word} (hn : n.toNat ≤ 16) (p : Vector Byte 16) (s : State) :
    sendWriteArray a n p s = issue .xfer (.write s.devAddr (inPageOffset a :: p.toList.take n.toNat))
      (loadTx (inPageOffset a) (p.toList.take n.toNat) s) := by
  have hl : (p.toList.take n.toNat).length = n.toNat := by simp [hn]
  have hm := txMessage_loadTx (inPageOffset a) (p.toList.take n.toNat) s (by omega)
  rw [hl] at hm
  rw [sendWriteArray, hm, loadTx_devAddr, dataWriteExchange]

theorem toNat_le_of_legalMultiple {n : Word} (h : legalMultiple n = true) : n.toNat ≤ 16 := by
  simp only [legalMultiple, Bool.or_eq_true, beq_iff_eq] at h
  omega

/-! ### A command underway -/

/-- The exchanges of a command's table row that have been issued when SEQ is in q (R97, R150). -/
def issuedBy (devAddr : BusAddr) (i : Instr) : Seq → List Exchange
  | .idle => []
  | .check => []
  | .presel => (exchangesOf devAddr i).take 1
  | .mult => (exchangesOf devAddr i).take 1
  | .dummy => (exchangesOf devAddr i).take 2
  | .xfer => exchangesOf devAddr i
  | .done => exchangesOf devAddr i

/-- A command on the short path has no exchange in the table (R97). -/
theorem exchangesOf_eq_nil {i : Instr} (hd : dataAddress i = none) (devAddr : BusAddr) : exchangesOf devAddr i = [] := by
  cases i <;> simp [dataAddress, exchangesOf] at hd ⊢

/-- A data command's first exchange is the pre-write of its address's page (R151). -/
theorem issuedBy_presel {i : Instr} {a : Word} (hd : dataAddress i = some a) (devAddr : BusAddr) :
    issuedBy devAddr i .presel = [preselExchange (pageSelect a)] := by
  cases i <;> simp [dataAddress] at hd <;> subst hd <;> rfl

/-- The response of an error is waiting to be delivered. -/
def Failing (t : State) : Prop := t.seq = .done ∧ ∃ r, t.pending = some r ∧ r.status ≠ .ok

theorem errorResponse_status_ne (k : ErrKind) : (errorResponse k).status ≠ .ok := by
  cases k <;> simp [errorResponse, ErrKind.status]

/-- A command that was accepted in s and has come to t, its response not yet delivered. -/
structure Underway (i : Instr) (s t : State) : Prop where
  frame : Framed i s t
  notIdle : t.seq ≠ .idle
  responses : t.responses = s.responses
  bus : t.seq.waiting = false → t.bus = none
  /-- What has been issued is the table's up to the state SEQ is in; after an error, up to where the error came. -/
  onTable : ∃ q, issued s t = issuedBy s.devAddr i q ∧ (t.seq = q ∨ Failing t)

/-- Until DONE, what has been issued goes by the state SEQ is in. -/
theorem Underway.issued_eq {i : Instr} {s t : State} (h : Underway i s t) {q : Seq} (hq : t.seq = q) (hd : q ≠ .done) :
    issued s t = issuedBy s.devAddr i q := by
  obtain ⟨q', hx, rfl | ⟨hdone, -⟩⟩ := h.onTable
  · rw [hx, hq]
  · exact absurd (hq.symm.trans hdone) hd

theorem accept_underway (i : Instr) {s : State} (hs : s.seq = .idle) (hb : s.bus = none) : Underway i s (accept s) where
  frame := accept_framed i s
  notIdle := by simp [hs]
  responses := by simp
  bus _ := by simp [hb]
  onTable := ⟨.check, by simp [issued, issuedBy, hb], .inl (by simp [hs])⟩

/-- An error keeps a command underway: it issues nothing more. -/
theorem Underway.raises {i : Instr} {s t u : State} (h : Underway i s t) (hf : Framed i t u) {k : ErrKind}
    (hq : u.seq = .done) (hp : u.pending = some (errorResponse k)) (hr : u.responses = t.responses)
    (hb : t.bus = none) (hn : u.trace = t.trace ∧ u.bus = t.bus ∧ u.answers = t.answers) : Underway i s u where
  frame := h.frame.trans hf
  notIdle := by simp [hq]
  responses := hr.trans h.responses
  bus _ := hn.2.1.trans hb
  onTable := by
    obtain ⟨htr, hbus, -⟩ := hn
    obtain ⟨q, hx, -⟩ := h.onTable
    exact ⟨q, by rw [← hx, issued, issued, htr, hbus], .inr ⟨hq, _, hp, errorResponse_status_ne k⟩⟩

theorem Underway.raise {i : Instr} {s t : State} (h : Underway i s t) (k : ErrKind) (hb : t.bus = none) :
    Underway i s (raise k t) :=
  h.raises (raise_framed i k t) rfl rfl rfl hb ⟨rfl, rfl, rfl⟩

theorem Underway.raiseOf {i : Instr} {s t : State} (h : Underway i s t) (k : ErrKind) (hb : t.bus = none) :
    Underway i s (raiseOf i k t) :=
  h.raises (raiseOf_framed i k t) (raiseOf_seq i k t) (raiseOf_pending i k t)
    (by unfold Machine.raiseOf; split <;> rfl) hb (raiseOf_noTraffic i k t)

/-- An exchange that ends keeps a command underway: it was issued before. -/
theorem Underway.settle {i : Instr} {s t : State} (h : Underway i s t) (hd : dataAddress i ≠ none) {x : Exchange}
    (hb : t.bus = some x) (e : Ending) (rest : List Answer) : Underway i s (settle x e rest t) where
  frame := h.frame.trans (settle_framed hd x e rest t)
  notIdle := h.notIdle
  responses := h.responses
  bus _ := rfl
  onTable := by
    obtain ⟨q, hx, hq⟩ := h.onTable
    exact ⟨q, (issued_settle h.frame.trace hb e rest).trans hx, hq⟩

/-- The table's next exchange, issued once a buffer is loaded, keeps a command underway. -/
theorem Underway.issues {i : Instr} {s t u : State} (h : Underway i s t) {q : Seq} {x : Exchange}
    (hf : Framed i t (issue q x u)) (hw : q.waiting = true) (hr : u.responses = t.responses) (htr : u.trace = t.trace)
    (hb : t.bus = none) (hx : issuedBy s.devAddr i q = issued s t ++ [x]) : Underway i s (issue q x u) where
  frame := h.frame.trans hf
  notIdle hi := by rw [issue_seq] at hi; rw [hi] at hw; cases hw
  responses := hr.trans h.responses
  bus hn := by rw [issue_seq, hw] at hn; cases hn
  onTable := ⟨q, by simp [hx, issued, htr, hb], .inl rfl⟩

/-- A command that has issued all its exchanges and ends with OK is underway until its response is delivered. -/
theorem Underway.finishes {i : Instr} {s t u : State} (h : Underway i s t) {v : Word} {r : List Byte}
    (hf : Framed i t (finishOk v r u)) (hr : u.responses = t.responses) (htr : u.trace = t.trace)
    (hb : t.bus = none) (hub : u.bus = none) (hx : issued s t = exchangesOf s.devAddr i) :
    Underway i s (finishOk v r u) where
  frame := h.frame.trans hf
  notIdle := by simp
  responses := hr.trans h.responses
  bus _ := hub
  onTable := ⟨.done, by simp [issuedBy, ← hx, issued, htr, hb, hub], .inl rfl⟩

/-- MULT comes after the pre-write and before the data write. -/
theorem Underway.toMult {i : Instr} {s t : State} (h : Underway i s t) (hf : Framed i t (toMult t)) (hb : t.bus = none)
    (hq : t.seq = .presel) : Underway i s (toMult t) where
  frame := h.frame.trans hf
  notIdle := by simp
  responses := h.responses
  bus _ := hb
  onTable := ⟨.mult, (h.issued_eq hq (by simp) :), .inl rfl⟩

/-- What follows an Ok answer keeps a command underway. -/
theorem GoesOn.underway {i : Instr} {q : Seq} {rx : Vector Byte 127} {s u v : State} (hu : Underway i s u)
    (hq : u.seq = q) (hb : u.bus = none) (h : GoesOn i q rx u v) : Underway i s v := by
  have hf := h.framed
  have hd : u.devAddr = s.devAddr := hu.frame.devAddr (by rintro a2 a1 a0 rfl; cases h)
  have hx : q ≠ .done → issued s u = issuedBy s.devAddr i q := hu.issued_eq hq
  cases h with
  | writeBytePresel a d =>
    rw [sendWriteByte_eq, hd] at hf ⊢
    exact hu.issues hf rfl (by simp) (by simp) hb (by rw [hx (by simp)]; rfl)
  | readBytePresel a =>
    exact hu.issues hf rfl (by simp) (by simp) hb (by rw [hx (by simp), hd]; rfl)
  | readArrayPresel a n =>
    exact hu.issues hf rfl (by simp) (by simp) hb (by rw [hx (by simp), hd]; rfl)
  | readArrayDummy a n =>
    exact hu.issues hf rfl (by simp) (by simp) hb (by rw [hx (by simp), hd]; rfl)
  | writeArrayPresel a n p => exact hu.toMult hf hb hq
  | writeByteXfer a d => exact hu.finishes hf (by simp) (by simp) hb (by simpa using hb) (hx (by simp))
  | readByteXfer a => exact hu.finishes hf (by simp) (by simp) hb (by simpa using hb) (hx (by simp))
  | readArrayXfer a n => exact hu.finishes hf (by simp) (by simp) hb (by simpa using hb) (hx (by simp))
  | writeArrayXfer a n p => exact hu.finishes hf (by simp) (by simp) hb (by simpa using hb) (hx (by simp))

/-- A command accepted in s has delivered its response in t. -/
def Ended (i : Instr) (s t : State) : Prop :=
  ∃ (r : Response) (u : State), Underway i s u ∧ u.seq = .done ∧ u.pending = some r ∧
    t = deliver r (if r.status = .ok then commitOf i u else u)

/-- A move keeps a command underway or ends it. -/
theorem Moved.underway {i : Instr} {s t u : State} (ht : Underway i s t) (h : Moved i t u) :
    Underway i s u ∨ Ended i s u := by
  have hf := h.framed
  have hx : ∀ {q}, t.seq = q → q ≠ .done → issued s t = issuedBy s.devAddr i q := ht.issued_eq
  have hb' : ∀ {q}, t.seq = q → q.waiting = false → t.bus = none := fun hq hw => ht.bus (hq ▸ hw)
  cases h with
  | stays h => exact .inl ht
  | refusedCheck hq hg => exact .inl (ht.raise _ (hb' hq rfl))
  | failsCheck k hq hk he hg => exact .inl (ht.raiseOf k (hb' hq rfl))
  | answersAtOnce v hq hd hg =>
    have hb := hb' hq rfl
    exact .inl (ht.finishes hf rfl rfl hb hb (by rw [hx hq (by simp), exchangesOf_eq_nil hd]; rfl))
  | preselects a hq hb hc hd =>
    exact .inl (ht.issues hf rfl (by simp) (by simp) (hb' hq rfl) (by rw [hx hq (by simp), issuedBy_presel hd]; rfl))
  | transportFails x e rest hw hq hb ha =>
    exact .inl ((ht.settle (dataAddress_ne_none_of_waiting hq hw) hb (.err e) rest).raiseOf _ rfl)
  | transportAnswers x rx rest _ q hs hw hb ha hg =>
    exact .inl (hg.underway (ht.settle hg.dataAddress_ne_none hb _ rest) hs rfl)
  | failsMult a n p hq hi hn => exact .inl (ht.raise _ (hb' hq rfl))
  | sends a n p hq hi hn =>
    subst hi
    have hd := ht.frame.devAddr (by simp)
    rw [sendWriteArray_eq a (toNat_le_of_legalMultiple hn), hd] at hf ⊢
    exact .inl (ht.issues hf rfl (by simp) (by simp) (hb' hq rfl) (by rw [hx hq (by simp)]; rfl))
  | delivers r hq hp => exact .inr ⟨r, t, ht, hq, hp, rfl⟩

theorem commitOf_responses (i : Instr) (s : State) : (commitOf i s).responses = s.responses := by
  cases i <;> rfl

/-- The end of a command issues nothing. -/
theorem issued_deliver_commitOf (s : State) (r : Response) (i : Instr) (u : State) :
    issued s (deliver r (commitOf i u)) = issued s u := by
  obtain ⟨htr, hbus, -⟩ := commitOf_noTraffic i u
  rw [issued, issued, deliver_trace, deliver_bus, htr, hbus]

/-- At IDLE a move changes nothing. -/
theorem Moved.eq_of_idle {i : Instr} {s t : State} (hs : s.seq = .idle) (h : Moved i s t) : t = s := by
  rcases h.progress with ⟨rfl, -⟩ | hr
  · rfl
  · rw [hs] at hr
    exact absurd hr (Nat.not_lt_zero _)

/-- From IDLE a command is underway or has delivered its response. -/
theorem exec_underway_or_ended {i : Instr} {s t : State} (hs : s.seq = .idle) (hb : s.bus = none)
    (h : exec i s = .next t) : Underway i s t ∨ Ended i s t := by
  rw [exec_eq_runCommand, runCommand] at h
  refine runMoves_keeps (P := fun u => Underway i s u ∨ Ended i s u) (fun u v hu hv => ?_) 5
    (.inl (accept_underway i hs hb)) h
  rcases hu with hu | ⟨r, w, hw⟩
  · exact (moved_of_moveOf hv).underway hu
  · rw [(moved_of_moveOf hv).eq_of_idle (by simp [hw])]
    exact .inr ⟨r, w, hw⟩

/-- A command that succeeds has issued every exchange of its table row, and writes its registers last. -/
theorem exec_succeeds {i : Instr} {s t : State} {r : Response} (hs : s.seq = .idle) (hb : s.bus = none)
    (h : exec i s = .next t) (hr : t.responses = s.responses ++ [r]) (hok : r.status = .ok) :
    ∃ u, t = deliver r (commitOf i u) ∧ u.bus = none ∧ issued s t = exchangesOf s.devAddr i := by
  rcases exec_underway_or_ended hs hb h with hu | ⟨r', u, hu, hq, hp, rfl⟩
  · rw [hu.responses] at hr
    simp at hr
  · obtain rfl : r' = r := by
      rw [deliver_responses, apply_ite State.responses, commitOf_responses, ite_self, hu.responses] at hr
      simpa using hr
    rw [if_pos hok, issued_deliver_commitOf]
    refine ⟨u, rfl, hu.bus (by rw [hq]; rfl), ?_⟩
    obtain ⟨q, hx, rfl | ⟨-, e, he, hne⟩⟩ := hu.onTable
    · rw [hx, hq, issuedBy]
    · rw [hp] at he
      cases he
      exact absurd hok hne

/-! ### A repeated READ_BYTE -/

/-- READ_BYTE that succeeds: its two exchanges, LASTR, and no other handle register (R64, R154). -/
theorem readByte_succeeds {a : Word} {s t : State} {r : Response} (hs : s.seq = .idle) (hb : s.bus = none)
    (h : exec (.readByte a) s = .next t) (hr : t.responses = s.responses ++ [r]) (hok : r.status = .ok) :
    issued s t = exchangesOf s.devAddr (.readByte a) ∧ t.lastR = bookkeepingAddress a ∧ t.seq = .idle ∧ t.bus = none ∧
      t.bound = s.bound ∧ t.devAddr = s.devAddr ∧ t.lastW = s.lastW := by
  have hf := exec_framed h
  obtain ⟨u, rfl, hu, hx⟩ := exec_succeeds hs hb h hr hok
  exact ⟨hx, rfl, rfl, hu, hf.bound (by simp) (by simp), hf.devAddr (by simp), hf.lastW (by simp) (by simp) (by simp)⟩

/-- Settles O40: both reads are READ_BYTEs that succeed with one DEVADDR. -/
theorem repeatedReadByteChangesNothingMore : Obligations.RepeatedReadByteChangesNothingMore := by
  intro a s t u r q hs hb ht hr hrok hu hq hqok
  obtain ⟨hx, hlast, hidle, hbus, hbound, hdev, hlastW⟩ := readByte_succeeds hs hb ht hr hrok
  obtain ⟨hx', hlast', -, -, hbound', hdev', hlastW'⟩ := readByte_succeeds hidle hbus hu hq hqok
  exact ⟨by rw [hx, hx', hdev], hlast, hlast'.trans hlast.symm, hbound, hdev, hlastW, hbound', hdev', hlastW'⟩

end Sys2Proof.Machine
end

section
/-! SUPPORT. Running a data command one answer at a time: each move, given what it finds, and then a command from where it
starts or waits (R150, R152). -/

namespace Sys2Proof.Machine

/-! ### Moves -/

/-- CHECK of a data command whose checks pass issues the pre-write (R151, R157). -/
theorem moveOf_of_checksPass {i : Instr} {a : Word} {s : State} (hq : s.seq = .check) (hb : s.bound = true)
    (hc : checksPass i) (hd : dataAddress i = some a) :
    moveOf i s = .next (issue .presel (preselExchange (pageSelect a)) s) := by
  cases i with
  | writeByte a' d =>
    cases hd
    have ha : a.toNat < 512 := hc
    simp [moveOf, moveWriteByte, hq, checkWriteByte, needHandle, hb, dataCheck_bounds, dataCheck_convert _ ha, ha]
  | readByte a' =>
    cases hd
    have ha : a.toNat < 512 := hc
    simp [moveOf, moveReadByte, hq, checkReadByte, needHandle, hb, dataCheck_bounds, dataCheck_convert _ ha, ha]
  | writeArray a' n p =>
    cases hd
    obtain ⟨hn, ha, hw⟩ := hc
    simp [moveOf, moveWriteArray, hq, checkWriteArray, needHandle, hb, dataCheck_bounds, dataCheck_convert _ ha, ha,
      dataCheck_window _ ha, (windowPasses_iff a n).1 hw, Nat.not_lt.2 hn]
  | readArray a' n =>
    cases hd
    obtain ⟨ha, hw⟩ := hc
    simp [moveOf, moveReadArray, hq, checkReadArray, needHandle, hb, dataCheck_bounds, dataCheck_convert _ ha, ha,
      dataCheck_window _ ha, (windowPasses_iff a n).1 hw]
  | _ => cases hd

/-- At rest, in IDLE or without an answer, a command does nothing (R152). -/
theorem moveOf_of_rests {i : Instr} {s : State} (hp : s.seq ∈ pathOf i) (hr : rests s) : moveOf i s = .next s := by
  rcases hr with hi | ⟨hw, hb, ha⟩
  · obtain ⟨t, ht⟩ := moveOf_answers (i := i) ⟨hp, by simp [hi, Seq.waiting], by simp [hi]⟩
    rw [ht, (moved_of_moveOf ht).eq_of_idle hi]
  · obtain ⟨t, ht⟩ := moveOf_answers (i := i) ⟨hp, fun _ => hb, fun hd => by rw [hd] at hw; cases hw⟩
    cases moved_of_moveOf ht with
    | stays h => exact ht
    | transportFails y e rest _ _ _ ha' => rw [ha] at ha'; cases ha'
    | transportAnswers y rx rest _ q _ _ _ ha' => rw [ha] at ha'; cases ha'
    | _ => simp_all [Seq.waiting]

/-- An Ok answer is followed by what GoesOn says. -/
theorem GoesOn.moveOf_eq {i : Instr} {q : Seq} {x : Exchange} {rx : Vector Byte 127} {rest : List Answer} {s t : State}
    (hq : s.seq = q) (hb : s.bus = some x) (ha : s.answers = .ok rx :: rest)
    (h : GoesOn i q rx (settle x (.ok (received rx x.readLen)) rest s) t) : moveOf i s = .next t := by
  generalize hu : settle x (.ok (received rx x.readLen)) rest s = u at h
  cases h <;> simp [moveOf, moveWriteByte, moveReadByte, moveReadArray, moveWriteArray, hq, await_ok hb ha, hu]

theorem shortMove_done {check commit : State → State} {s : State} (hq : s.seq = .done) :
    shortMove check commit s = doneMove commit s := by
  simp only [shortMove, hq]

/-- In DONE every command delivers its response. -/
theorem moveOf_of_done {i : Instr} {s : State} (hq : s.seq = .done) : moveOf i s = doneMove (commitOf i) s := by
  cases i
  case writeByte a d => simp only [moveOf, moveWriteByte, hq, commitOf]
  case readByte a => simp only [moveOf, moveReadByte, hq, commitOf]
  case writeArray a n p => simp only [moveOf, moveWriteArray, hq, commitOf]
  case readArray a n => simp only [moveOf, moveReadArray, hq, commitOf]
  all_goals exact shortMove_done hq

/-! ### Whole commands -/

theorem idle_mem_pathOf (i : Instr) : Seq.idle ∈ pathOf i := by
  cases i <;> exact List.mem_cons_self

/-- A command whose first move comes to rest in u goes no further. -/
theorem exec_eq_of_rests {i : Instr} {s u : State} (h : moveOf i (accept s) = .next u) (hp : u.seq ∈ pathOf i)
    (hr : rests u) : exec i s = .next u := by
  rw [exec_eq_runCommand, runCommand, runMoves_succ, h, andThen_next, runMoves_fixed (moveOf_of_rests hp hr)]

/-- A command whose first move reaches DONE with an OK response delivers it. -/
theorem exec_eq_of_done {i : Instr} {r : Response} {s u : State} (h : moveOf i (accept s) = .next u)
    (hq : u.seq = .done) (hp : u.pending = some r) (hok : r.status = .ok) :
    exec i s = .next (deliver r (commitOf i u)) := by
  have hd : moveOf i u = .next (deliver r (commitOf i u)) := by
    rw [moveOf_of_done hq, doneMove_of_pending hp, if_pos hok]
  rw [exec_eq_runCommand, runCommand, runMoves_succ, h, andThen_next, runMoves_succ, hd, andThen_next]
  exact runMoves_fixed (moveOf_of_rests (idle_mem_pathOf i) (.inl rfl)) 3

/-- A data command whose checks pass, before the transport has answered: it waits for its pre-write (R151, R152). -/
theorem exec_eq_presel {i : Instr} {a : Word} {s : State} (hs : s.seq = .idle) (hb : s.bound = true)
    (hc : checksPass i) (hd : dataAddress i = some a) (ha : s.answers = []) :
    exec i s = .next (issue .presel (preselExchange (pageSelect a)) s) := by
  have hm : moveOf i (accept s) = .next (issue .presel (preselExchange (pageSelect a)) s) := by
    rw [accept_of_idle hs]
    exact moveOf_of_checksPass rfl hb hc hd
  exact exec_eq_of_rests hm (by cases i <;> simp [dataAddress, pathOf] at hd ⊢) (.inr ⟨rfl, rfl, ha⟩)

end Sys2Proof.Machine
end

section
/-! SUPPORT. The bench (92_eei_decisions.md D28): a command that waits there is answered by the device in the next step. -/

namespace Sys2Proof.Machine

theorem Bench.run_of_step {b c : Bench} (h : b.step = .next c) (k : Nat) : b.run (k + 1) = c.run k := by
  simp only [Bench.run, h]

theorem Bench.run_add {b c : Bench} {j : Nat} (h : b.run j = .next c) (k : Nat) : b.run (j + k) = c.run k := by
  induction j generalizing b with
  | zero => cases h; rw [Nat.zero_add]
  | succ j ih =>
    cases hb : b.step with
    | next d => rw [Bench.run_of_step hb] at h; rw [Nat.add_right_comm, Bench.run_of_step hb, ih h]
    | fault e => simp only [Bench.run, hb, reduceCtorEq] at h
    | refused e => simp only [Bench.run, hb, reduceCtorEq] at h

/-- The state with the host's next descriptor latched (R80). -/
def State.latch (d : Descriptor) (rest : List Descriptor) (s : State) : State := { s with cmd := d, host := rest }

/-- The state with the transport's answers replaced. -/
def State.withAnswers (l : List Answer) (s : State) : State := { s with answers := l }

/-- In IDLE a step latches the host's next descriptor and runs its command (R28, R80). -/
theorem step_of_idle {s : State} {d : Descriptor} {rest : List Descriptor} (hs : s.seq = .idle) (hr : s.resetIn = none)
    (hh : s.host = d :: rest) : step s = exec (decode d) (s.latch d rest) := by
  simp only [step, fetch, if_pos hs, hh, hr, State.latch]

/-- Between commands the device has nothing to answer, and the core takes the host's next command. -/
theorem Bench.step_of_idle {b : Bench} {d : Descriptor} {rest : List Descriptor} {t : State} (hs : b.core.seq = .idle)
    (hb : b.core.bus = none) (hr : b.core.resetIn = none) (hh : b.core.host = d :: rest)
    (h : exec (decode d) (b.core.latch d rest) = .next t) : b.step = .next ⟨t, b.dev⟩ := by
  have hv : b.serve = b := by simp only [Bench.serve, hb]
  rw [Bench.step, hv, Machine.step_of_idle hs hr hh, h]

/-- On the bench, command i waits in state q for the device's answer to x. -/
structure Bench.Waits (i : Instr) (q : Seq) (x : Exchange) (b : Bench) : Prop where
  latched : decode b.core.cmd = i
  seq : b.core.seq = q
  bus : b.core.bus = some x
  answers : b.core.answers = []
  resetIn : b.core.resetIn = none

/-- The device performs and answers the exchange, and the command goes on with the answer. -/
theorem Bench.Waits.step_eq {i : Instr} {q : Seq} {x : Exchange} {b : Bench} {t : State} (h : b.Waits i q x)
    (hq : q ≠ .idle) (he : exec i (b.core.withAnswers [b.dev.answer x]) = .next t) :
    b.step = .next ⟨t, b.dev.after x⟩ := by
  have hv : b.serve = ⟨b.core.withAnswers [b.dev.answer x], b.dev.after x⟩ := by
    simp only [Bench.serve, h.bus, h.answers, State.withAnswers]
  have hs : Machine.step (b.core.withAnswers [b.dev.answer x]) = .next t := by
    rw [step_of_inFlight (s := b.core.withAnswers [b.dev.answer x]) (by rw [← h.seq] at hq; exact hq) h.resetIn, ← he]
    exact congrArg (exec · _) h.latched
  rw [Bench.step, hv, hs]

theorem GoesOn.ne_idle {i : Instr} {q : Seq} {rx : Vector Byte 127} {u v : State} (h : GoesOn i q rx u v) :
    q ≠ .idle := by
  cases h <;> simp

theorem GoesOn.onPath {i : Instr} {q : Seq} {rx : Vector Byte 127} {u v : State} (h : GoesOn i q rx u v) :
    v.seq ∈ pathOf i := by
  cases h <;> simp [sendWriteByte, pathOf]

theorem GoesOn.answers {i : Instr} {q : Seq} {rx : Vector Byte 127} {u v : State} (h : GoesOn i q rx u v) :
    v.answers = u.answers := by
  cases h <;> simp [sendWriteByte]

section
variable {i : Instr} {q : Seq} {x : Exchange} {rx : Vector Byte 127} {b : Bench} {t : State}

/-- On the bench the command's move takes the device's answer. -/
theorem Bench.Waits.moveOf_eq (h : b.Waits i q x) (ha : b.dev.answer x = .ok rx)
    (hg : GoesOn i q rx (settle x (.ok (received rx x.readLen)) [] b.core) t) :
    moveOf i (accept (b.core.withAnswers [b.dev.answer x])) = .next t := by
  rw [accept_of_not_idle (s := b.core.withAnswers [b.dev.answer x]) fun hi => hg.ne_idle (h.seq.symm.trans hi)]
  exact GoesOn.moveOf_eq (s := b.core.withAnswers [b.dev.answer x]) h.seq h.bus (by rw [ha]; rfl) hg

/-- After the device's answer the command waits for the next one. -/
theorem Bench.Waits.step_waits {y : Exchange} (h : b.Waits i q x) (ha : b.dev.answer x = .ok rx)
    (hg : GoesOn i q rx (settle x (.ok (received rx x.readLen)) [] b.core) t)
    (hw : t.seq.waiting = true) (hy : t.bus = some y) :
    b.step = .next ⟨t, b.dev.after x⟩ ∧ Bench.Waits i t.seq y ⟨t, b.dev.after x⟩ := by
  refine ⟨h.step_eq hg.ne_idle (exec_eq_of_rests (h.moveOf_eq ha hg) hg.onPath (.inr ⟨hw, by simp [hy], hg.answers⟩)), ?_⟩
  exact ⟨hg.framed.cmd ▸ h.latched, rfl, hy, hg.answers, hg.framed.resetIn.trans h.resetIn⟩

/-- After the device's last answer the command ends with OK. -/
theorem Bench.Waits.step_ends {r : Response} (h : b.Waits i q x) (ha : b.dev.answer x = .ok rx)
    (hg : GoesOn i q rx (settle x (.ok (received rx x.readLen)) [] b.core) t)
    (hd : t.seq = .done) (hp : t.pending = some r) (hok : r.status = .ok) :
    b.step = .next ⟨deliver r (commitOf i t), b.dev.after x⟩ :=
  h.step_eq hg.ne_idle (exec_eq_of_done (h.moveOf_eq ha hg) hd hp hok)

end

/-! ### The device's answers (D28) -/

/-- A page-select pre-write sets the page bit to the address's page. -/
theorem RefDevice.after_presel (v : RefDevice) {a : Word} (ha : a.toNat < 512) :
    v.after (preselExchange (pageSelect a)) = { v with page := decide (256 ≤ a.toNat) } := by
  by_cases h : a.toNat < 256
  · simp [preselExchange, RefDevice.after, pageSelect_low h, Nat.not_le.2 h]
  · simp [preselExchange, RefDevice.after, pageSelect_high (Nat.le_of_not_lt h) ha, pageFn_or_one_ne, Nat.le_of_not_lt h]

/-- A read leaves the device as it is. -/
theorem RefDevice.after_read (v : RefDevice) (ba : BusAddr) (off : Byte) (n : Nat) :
    v.after (readExchange ba off n) = v := rfl

/-- The bytes the device answers a read with, from the offset on. -/
def RefDevice.readAnswer (v : RefDevice) (off : Byte) : Vector Byte 127 := Vector.ofFn fun i => v.byteAt off i.val

theorem RefDevice.answer_read {v : RefDevice} {ba : BusAddr} (hba : v.addr = ba) (off : Byte) (n : Nat) :
    v.answer (readExchange ba off n) = .ok (v.readAnswer off) := by
  simp [RefDevice.answer, readExchange, Exchange.sent, Exchange.busAddr, RefDevice.readAnswer, hba]

/-- On the address's page the i-th byte from its offset is the one at `a + i`. -/
theorem RefDevice.byteAt_eq {v : RefDevice} {a : Word} (ha : a.toNat < 512) (hp : v.page = decide (256 ≤ a.toNat)) {i : Nat}
    (hi : (inPageOffset a).toNat + i ≤ 255) : v.byteAt (inPageOffset a) i = readMem v.mem (a.toNat + i) := by
  have hbase : v.base + (inPageOffset a).toNat = a.toNat := by
    simp only [RefDevice.base, hp, decide_eq_true_eq, inPageOffset_toNat]
    split <;> omega
  rw [RefDevice.byteAt, if_pos hi, hbase]

/-- A read inside the window receives the device's bytes from the address on (R56). -/
theorem received_readAnswer {v : RefDevice} {a n : Word} (ha : a.toNat < 512) (hp : v.page = decide (256 ≤ a.toNat))
    (hw : windowPasses a n) :
    received (v.readAnswer (inPageOffset a)) n.toNat = (List.range n.toNat).map fun k => readMem v.mem (a.toNat + k) := by
  have hw' := (windowPasses_iff a n).1 hw
  have hn := len_le_of_window hw'
  have hmax := windowMax_le (inPageOffset a)
  apply List.ext_getElem
  · simp [length_received _ hn]
  · intro k hk _
    rw [length_received _ hn] at hk
    simp only [received, RefDevice.readAnswer, List.getElem_take, Vector.getElem_toList, Vector.getElem_ofFn,
      List.getElem_map, List.getElem_range]
    exact RefDevice.byteAt_eq ha hp (by omega)

end Sys2Proof.Machine
end

section
/-! SUPPORT. READ_ARRAY on the bench, from IDLE to its response in four steps (R155, R56). -/

namespace Sys2Proof.Machine

theorem decode_encode_readArray (a n : Word) : decode (encode (.readArray a n)) = .readArray a n := by
  simp only [decode, encode, descriptor, Laws.decodeHeader_readArray]

/-- A data command with its checks passed waits, after the step that latches it, for its page-select pre-write. -/
theorem Bench.step_presel {b : Bench} {d : Descriptor} {rest : List Descriptor} {i : Instr} {a : Word}
    (hs : b.core.seq = .idle) (hbd : b.core.bound = true) (hb : b.core.bus = none) (ha : b.core.answers = [])
    (hr : b.core.resetIn = none) (hh : b.core.host = d :: rest) (hi : decode d = i) (hc : checksPass i)
    (hd : dataAddress i = some a) :
    b.step = .next ⟨issue .presel (preselExchange (pageSelect a)) (b.core.latch d rest), b.dev⟩ ∧
      Bench.Waits i .presel (preselExchange (pageSelect a))
        ⟨issue .presel (preselExchange (pageSelect a)) (b.core.latch d rest), b.dev⟩ := by
  subst hi
  exact ⟨Bench.step_of_idle hs hb hr hh (exec_eq_presel (s := b.core.latch d rest) hs hbd hc hd ha), rfl, rfl, rfl, ha, hr⟩

/-- READ_ARRAY up to its dummy read: the pre-write has selected the address's page. -/
theorem Bench.run_readArray_presel {b : Bench} {a n : Word} {rest : List Descriptor} (hs : b.core.seq = .idle)
    (hbd : b.core.bound = true) (hb : b.core.bus = none) (ha : b.core.answers = []) (hr : b.core.resetIn = none)
    (hh : b.core.host = encode (.readArray a n) :: rest) (hlt : a.toNat < 512) (hw : windowPasses a n) :
    ∃ c, b.run 2 = .next c ∧ c.Waits (.readArray a n) .dummy (readExchange c.core.devAddr (inPageOffset a) 1) ∧
      c.core.devAddr = b.core.devAddr ∧ c.core.host = rest ∧ c.core.responses = b.core.responses ∧
      c.dev = { b.dev with page := decide (256 ≤ a.toNat) } := by
  obtain ⟨h1, w1⟩ := Bench.step_presel hs hbd hb ha hr hh (decode_encode_readArray a n) (a := a) ⟨hlt, hw⟩ rfl
  obtain ⟨h2, w2⟩ := w1.step_waits rfl (.readArrayPresel a n _ _) rfl rfl
  have hrun := (Bench.run_of_step h1 1).trans (Bench.run_of_step h2 0)
  exact ⟨_, hrun, w2, rfl, rfl, rfl, RefDevice.after_presel b.dev hlt⟩

/-- READ_ARRAY past its pre-write: the dummy read and the data read, both answered from the offset on, and the response. -/
theorem Bench.run_readArray_reads {b : Bench} {a n : Word} (hn : n.toNat ≤ 127)
    (h : b.Waits (.readArray a n) .dummy (readExchange b.core.devAddr (inPageOffset a) 1))
    (hdev : b.dev.addr = b.core.devAddr) {data : List Byte}
    (hdata : received (b.dev.readAnswer (inPageOffset a)) n.toNat = data) :
    ∃ c, b.run 2 = .next c ∧ c.core.host = b.core.host ∧
      c.core.responses = b.core.responses ++ [succeeded 0#32 data] ∧ c.core.rxBuf.toList.take n.toNat = data := by
  have hans : ∀ m, b.dev.answer (readExchange b.core.devAddr (inPageOffset a) m) =
      .ok (b.dev.readAnswer (inPageOffset a)) := RefDevice.answer_read hdev (inPageOffset a)
  obtain ⟨h1, w1⟩ := h.step_waits (hans 1) (.readArrayDummy a n _ _) rfl rfl
  have h2 := w1.step_ends (hans n.toNat) (.readArrayXfer a n _ _) rfl rfl rfl
  have hlen : data.length = n.toNat := by rw [← hdata, length_received _ hn]
  rw [hdata] at h2
  have hrun := (Bench.run_of_step h1 1).trans (Bench.run_of_step h2 0)
  refine ⟨_, hrun, by simp [commitOf], ?_, ?_⟩
  · simp [commitOf, succeeded, okResponse]
  · rw [deliver_rxBuf, commitOf, recordRead_rxBuf, finishOk_rxBuf, loadRx_rxBuf_toList _ _ (by omega), ← hlen,
      List.take_left]

/-- Settles O54: the pre-write selects the page, and the data read receives its bytes from the address on. -/
theorem readArrayReturnsTheDevicesBytes : Obligations.ReadArrayReturnsTheDevicesBytes := by
  intro b a n rest hs hbd hb ha hr hdev _ _ hh hlt hw
  have hn : n.toNat ≤ 127 := len_le_of_window ((windowPasses_iff a n).1 hw)
  obtain ⟨c, hrun, hwait, haddr, hhost, hresp, hcdev⟩ := Bench.run_readArray_presel hs hbd hb ha hr hh hlt hw
  have hdata : received (c.dev.readAnswer (inPageOffset a)) n.toNat =
      (List.range n.toNat).map fun k => readMem b.dev.mem (a.toNat + k) := by
    rw [received_readAnswer hlt (by rw [hcdev]) hw, hcdev]
  rw [Bench.run_add hrun 2, ← hhost, ← hresp]
  exact Bench.run_readArray_reads hn hwait (by rw [haddr, hcdev, hdev]) hdata

end Sys2Proof.Machine
end

section
/-! SUPPORT. The decoder by fields: a header is its five fields (R81), which tests a legal one passes (R87, R88), what its
opcode makes of a descriptor (R85), and that this is the opcode table's match (R87). -/

namespace Sys2Proof

/-! ### The fields of a header -/

/-- A header is its five fields, highest first (R81). -/
theorem header_eq_fields (h : Word) :
    h = Header.reservedHigh h ++ Header.data h ++ Header.reserved7 h ++ Header.cfg h ++ Header.op h := by
  simp only [Header.reservedHigh, Header.data, Header.reserved7, Header.cfg, Header.op,
    BitVec.extractLsb'_append_extractLsb'_eq_extractLsb', BitVec.extractLsb'_eq_self]

/-- Two headers are one where their fields agree. -/
theorem header_eq_iff (h g : Word) : h = g ↔
    Header.reservedHigh h = Header.reservedHigh g ∧ Header.reserved7 h = Header.reserved7 g ∧
      Header.data h = Header.data g ∧ Header.cfg h = Header.cfg g ∧ Header.op h = Header.op g := by
  refine ⟨fun e => by simp [e], fun ⟨hh, h7, hd, hc, ho⟩ => ?_⟩
  rw [header_eq_fields h, header_eq_fields g, hh, h7, hd, hc, ho]

/-! ### Opcodes -/

/-- An opcode's value in H[3:0] (R85). -/
def Opcode.code : Opcode → BitVec 4
  | .construct => 0x1#4
  | .release => 0x2#4
  | .writeByte => 0x3#4
  | .readByte => 0x4#4
  | .writeArray => 0x5#4
  | .readArray => 0x6#4
  | .prevWriteAddr => 0x7#4
  | .prevReadAddr => 0x8#4
  | .validateBounds => 0x9#4
  | .convert => 0xA#4
  | .validateWindow => 0xB#4

theorem opcodeOf_eq_some_iff (o : Opcode) : ∀ op : BitVec 4, opcodeOf op = some o ↔ op = o.code := by
  cases o <;> decide

/-- No command has a reserved opcode (R86). -/
theorem Opcode.code_not_reserved (o : Opcode) : ¬ (o.code = 0x0#4 ∨ 0xC ≤ o.code.toNat) := by
  cases o <;> decide

/-! ### Legal headers -/

/-- R87's bits that must be clear are clear. -/
def unusedClear (h : Word) : Prop :=
  Header.reservedHigh h = 0#16 ∧ Header.reserved7 h = 0#1 ∧ (Header.op h = 0x3#4 ∨ Header.data h = 0#8) ∧
    (Header.op h = 0x1#4 ∨ Header.cfg h = 0#3)

/-- R88's pseudocode accepts a header for an opcode exactly where R87's bits are clear and R85 maps it there. -/
theorem decodeHeader_eq_ok_iff (h : Word) (o : Opcode) :
    decodeHeader h = .ok o ↔ unusedClear h ∧ Header.op h = o.code := by
  rw [← opcodeOf_eq_some_iff]
  unfold decodeHeader
  split
  next h1 => simp only [unusedClear, reduceCtorEq, false_iff]; tauto
  next h1 =>
  split
  next h2 => simp only [unusedClear, reduceCtorEq, false_iff]; tauto
  next h2 =>
  split
  next h3 => simp only [unusedClear, reduceCtorEq, false_iff]; tauto
  next h3 =>
  have hclear : unusedClear h := by unfold unusedClear; tauto
  cases opcodeOf (Header.op h) <;> simp [hclear]

/-- R86 and R87's words ask for the same clear bits as R88's pseudocode. -/
theorem unusedClear_of_legal {h : Word} (hl : headerLegal h = true) : unusedClear h := by
  simp only [headerLegal, Bool.and_eq_true, Bool.or_eq_true, beq_iff_eq] at hl
  obtain ⟨⟨⟨⟨hhigh, h7⟩, hdata⟩, hcfg⟩, -⟩ := hl
  exact ⟨hhigh, h7, hdata.imp_left BitVec.eq_of_toNat_eq, hcfg.imp_left BitVec.eq_of_toNat_eq⟩

/-! ### The command an opcode makes of a descriptor -/

/-- R85's map: an opcode's command, with the fields it reads. -/
def Opcode.command (d : Descriptor) : Opcode → Instr
  | .construct => .construct (d.h.getLsbD 6) (d.h.getLsbD 5) (d.h.getLsbD 4)
  | .release => .release
  | .writeByte => .writeByte d.addr (Header.data d.h)
  | .readByte => .readByte d.addr
  | .writeArray => .writeArray d.addr d.len d.p
  | .readArray => .readArray d.addr d.len
  | .prevWriteAddr => .prevWriteAddr
  | .prevReadAddr => .prevReadAddr
  | .validateBounds => .validateBounds d.addr
  | .convert => .convert d.addr
  | .validateWindow => .validateWindow d.addr d.len

theorem decode_of_ok {d : Descriptor} {o : Opcode} (h : decodeHeader d.h = .ok o) : decode d = o.command d := by
  cases o <;> simp only [decode, h, Opcode.command]

theorem decode_of_error {d : Descriptor} {e : Reject} (h : decodeHeader d.h = .error e) : decode d = .illegal d.h := by
  simp only [decode, h]

theorem Opcode.command_ne_illegal (o : Opcode) (d : Descriptor) (h : Word) : o.command d ≠ .illegal h := by
  cases o <;> simp [Opcode.command]

/-- A descriptor is decoded as illegal exactly where its header is accepted for no opcode. -/
theorem decode_eq_illegal_iff (d : Descriptor) :
    decode d = .illegal d.h ↔ (decodeHeader d.h).toOption = none := by
  cases h : decodeHeader d.h with
  | error e => simp [decode_of_error h, Except.toOption]
  | ok o => simp [decode_of_ok h, o.command_ne_illegal, Except.toOption]

/-! ### The opcode table's masks -/

theorem decodeHeader_toOption_eq_some_iff (h : Word) (o : Opcode) :
    (decodeHeader h).toOption = some o ↔ unusedClear h ∧ Header.op h = o.code := by
  rw [← decodeHeader_eq_ok_iff]
  cases decodeHeader h <;> simp [Except.toOption]

/-- A masked comparison, field by field. -/
theorem and_eq_iff (h m p : Word) : h &&& m = p ↔
    Header.reservedHigh h &&& Header.reservedHigh m = Header.reservedHigh p ∧
      Header.reserved7 h &&& Header.reserved7 m = Header.reserved7 p ∧
      Header.data h &&& Header.data m = Header.data p ∧ Header.cfg h &&& Header.cfg m = Header.cfg p ∧
      Header.op h &&& Header.op m = Header.op p := by
  simp only [header_eq_iff, Header.reservedHigh, Header.reserved7, Header.data, Header.cfg, Header.op,
    BitVec.extractLsb'_and]

/-- A row that compares every bit but those of DATA or CFG where the opcode uses them, and wants only the opcode set. -/
structure OpcodeRow.Exact (r : OpcodeRow) : Prop where
  reservedHigh : Header.reservedHigh r.mask = BitVec.allOnes 16 ∧ Header.reservedHigh r.pat = 0#16
  reserved7 : Header.reserved7 r.mask = BitVec.allOnes 1 ∧ Header.reserved7 r.pat = 0#1
  data : Header.data r.mask = (if r.opcode.code = 0x3#4 then 0#8 else BitVec.allOnes 8) ∧ Header.data r.pat = 0#8
  cfg : Header.cfg r.mask = (if r.opcode.code = 0x1#4 then 0#3 else BitVec.allOnes 3) ∧ Header.cfg r.pat = 0#3
  op : Header.op r.mask = BitVec.allOnes 4 ∧ Header.op r.pat = r.opcode.code

theorem opcodeTable_exact : ∀ r ∈ opcodeTable, r.Exact := by
  simp only [opcodeTable, List.forall_mem_cons, List.not_mem_nil, false_imp_iff, implies_true, and_true]
  refine ⟨?_, ?_, ?_, ?_, ?_, ?_, ?_, ?_, ?_, ?_, ?_⟩ <;> constructor <;> decide

/-- A field that is compared unless c is clear there. -/
theorem and_ite_eq_zero_iff {w : Nat} (x : BitVec w) (c : Prop) [Decidable c] :
    x &&& (if c then 0#w else BitVec.allOnes w) = 0#w ↔ c ∨ x = 0#w := by
  split
  next hc => simp [hc]
  next hc => simp [hc, BitVec.and_allOnes]

/-- A header matches an exact row where R87's bits are clear and its opcode is the row's. -/
theorem OpcodeRow.Exact.and_mask_eq_pat_iff {r : OpcodeRow} (hr : r.Exact) (h : Word) :
    h &&& r.mask = r.pat ↔ unusedClear h ∧ Header.op h = r.opcode.code := by
  obtain ⟨⟨hm, hp⟩, ⟨h7m, h7p⟩, ⟨hdm, hdp⟩, ⟨hcm, hcp⟩, hom, hop⟩ := hr
  rw [and_eq_iff, hm, hp, h7m, h7p, hdm, hdp, hcm, hcp, hom, hop, unusedClear, and_ite_eq_zero_iff, and_ite_eq_zero_iff,
    BitVec.and_allOnes, BitVec.and_allOnes, BitVec.and_allOnes]
  by_cases ho : Header.op h = r.opcode.code
  · rw [ho]; tauto
  · simp only [ho, and_false]

/-- The rows a header matches are those of the opcode it is accepted for (R87, R88). -/
theorem rowsMatching_eq (h : Word) :
    rowsMatching h = opcodeTable.filter fun r => (decodeHeader h).toOption == some r.opcode := by
  refine List.filter_congr fun r hr => ?_
  rw [Bool.eq_iff_iff, beq_iff_eq, beq_iff_eq, (opcodeTable_exact r hr).and_mask_eq_pat_iff,
    decodeHeader_toOption_eq_some_iff]

theorem rowsMatching_of_rejected {h : Word} (hd : (decodeHeader h).toOption = none) : rowsMatching h = [] := by
  rw [rowsMatching_eq, hd]
  rfl

theorem length_rowsMatching_of_accepted {h : Word} {o : Opcode} (hd : (decodeHeader h).toOption = some o) :
    (rowsMatching h).length = 1 := by
  rw [rowsMatching_eq, hd]
  cases o <;> rfl

/-- A header matches no row exactly where it is accepted for no opcode. -/
theorem rowsMatching_eq_nil_iff (h : Word) : rowsMatching h = [] ↔ (decodeHeader h).toOption = none := by
  cases hd : (decodeHeader h).toOption with
  | none => simp only [rowsMatching_of_rejected hd]
  | some o =>
    have hlen := length_rowsMatching_of_accepted hd
    refine ⟨fun hnil => ?_, fun hno => by cases hno⟩
    rw [hnil] at hlen
    cases hlen

end Sys2Proof
end

section
/-! SUPPORT. A command whose CHECK raises an error (R235). -/

namespace Sys2Proof.Machine

/-- From IDLE a command whose CHECK raises an error ends with it and changes nothing (R235). -/
theorem exec_eq_of_raises {i : Instr} {k : ErrKind} {s : State} (hs : s.seq = .idle)
    (h : moveOf i (accept s) = .next (raise k (accept s))) : exec i s = .next (s.endWith (errorResponse k)) := by
  have hd : moveOf i (raise k (accept s)) = .next (deliver (errorResponse k) (raise k (accept s))) := by
    rw [moveOf_of_done rfl, doneMove_of_pending (raise_pending k (accept s)), if_neg (errorResponse_status_ne k)]
  have he : deliver (errorResponse k) (raise k (accept s)) = s.endWith (errorResponse k) := by
    rw [accept_of_idle hs]
    apply State.ext
    case seq => exact hs.symm
    all_goals rfl
  rw [exec_eq_runCommand, runCommand, runMoves_succ, h, andThen_next, runMoves_succ, hd, andThen_next, ← he]
  exact runMoves_fixed (moveOf_of_rests (idle_mem_pathOf i) (.inl rfl)) 3

/-- An illegal command ends with IllegalCommand and changes nothing (R204). -/
theorem exec_illegal (h : Word) {s : State} (hs : s.seq = .idle) :
    exec (.illegal h) s = .next (s.endWith (failed .illegalCommand none)) :=
  exec_eq_of_raises (k := .illegalCommand) hs (by simp [moveOf, moveIllegal, shortMove, hs])

end Sys2Proof.Machine
end

section
/-! SUPPORT. Decoding: what a legal and an illegal header come to (R85 to R87), and which payload bytes are read (R84). -/

namespace Sys2Proof.Machine

/-! ### Legal and illegal headers -/

/-- Settles O3: a header with a bit set that must be clear is accepted for no opcode, and the table's rows are the accepted
opcode's. -/
theorem legalHeadersMatchExactlyOneRow : Obligations.LegalHeadersMatchExactlyOneRow := by
  intro d
  rw [decode_eq_illegal_iff, rowsMatching_eq_nil_iff]
  refine ⟨fun hset => ?_, Iff.rfl, fun hne => ?_, fun s hd hs => ?_⟩
  · refine Option.eq_none_iff_forall_not_mem.2 fun o ho => ?_
    obtain ⟨⟨hhigh, h7, hdata, hcfg⟩, -⟩ := (decodeHeader_toOption_eq_some_iff _ o).1 ho
    rcases hset with h | h | ⟨h, hop⟩ | ⟨h, hop⟩
    · exact h hhigh
    · exact h h7
    · exact hdata.elim hop h
    · exact hcfg.elim hop h
  · obtain ⟨o, ho⟩ := Option.ne_none_iff_exists'.1 (mt (decode_eq_illegal_iff d).2 hne)
    exact length_rowsMatching_of_accepted ho
  · rw [(decode_eq_illegal_iff d).2 hd]
    exact exec_illegal d.h hs

/-- Settles O4: no command has a reserved opcode. -/
theorem reservedOpcodesAreIllegal : Obligations.ReservedOpcodesAreIllegal := by
  intro d s hop hs
  have hd : decode d = .illegal d.h := by
    refine (decode_eq_illegal_iff d).2 (Option.eq_none_iff_forall_not_mem.2 fun o ho => o.code_not_reserved ?_)
    obtain ⟨-, hcode⟩ := (decodeHeader_toOption_eq_some_iff _ o).1 ho
    rwa [← hcode]
  rw [hd]
  exact exec_illegal d.h hs

/-- Settles O5: a legal header is accepted for its opcode, and any other for none. -/
theorem decodingFollowsTheOpcodeMap : Obligations.DecodingFollowsTheOpcodeMap := by
  intro h addr len p
  have hmap : headerLegal h = true → ∀ o : Opcode, Header.op h = o.code →
      decode ⟨h, addr, len, p⟩ = o.command ⟨h, addr, len, p⟩ := fun hl o ho =>
    decode_of_ok ((decodeHeader_eq_ok_iff h o).2 ⟨unusedClear_of_legal hl, ho⟩)
  refine ⟨fun hl => (decode_eq_illegal_iff _).2 (Laws.decodeHeader_of_not_legal hl), fun hl => ?_⟩
  exact ⟨hmap hl .construct, hmap hl .release, hmap hl .writeByte, hmap hl .readByte, hmap hl .writeArray,
    hmap hl .readArray, hmap hl .prevWriteAddr, hmap hl .prevReadAddr, hmap hl .validateBounds, hmap hl .convert,
    hmap hl .validateWindow⟩

/-! ### The payload -/

/-- Only WRITE_ARRAY reads P (R84). -/
theorem decode_payload_irrelevant {h : Word} (ho : Header.op h ≠ 0x5#4) (addr len : Word) (p q : Vector Byte 16) :
    decode ⟨h, addr, len, p⟩ = decode ⟨h, addr, len, q⟩ := by
  cases hd : decodeHeader h with
  | error e => rw [decode_of_error (d := ⟨h, addr, len, p⟩) hd, decode_of_error (d := ⟨h, addr, len, q⟩) hd]
  | ok o =>
    rw [decode_of_ok (d := ⟨h, addr, len, p⟩) hd, decode_of_ok (d := ⟨h, addr, len, q⟩) hd]
    cases o
    case writeArray => exact absurd ((decodeHeader_eq_ok_iff h _).1 hd).2 ho
    all_goals rfl

/-- Payloads that agree below n have the same first n bytes. -/
theorem take_toList_eq {n : Nat} {p q : Vector Byte 16} (h : ∀ k : Fin 16, k.val < n → p[k] = q[k]) :
    p.toList.take n = q.toList.take n := by
  apply List.ext_getElem
  · simp
  · intro k hp _
    simp only [List.length_take, Vector.length_toList, lt_min_iff] at hp
    simpa using h ⟨k, hp.2⟩ hp.1

/-- WRITE_ARRAY's moves read the payload's first n bytes only. -/
theorem moveWriteArray_congr {n : Word} {p q : Vector Byte 16} (h : p.toList.take n.toNat = q.toList.take n.toNat)
    (a : Word) : moveWriteArray a n p = moveWriteArray a n q := by
  funext s
  simp only [moveWriteArray, multWriteArray, sendWriteArray, h]

/-- A WRITE_ARRAY of more than 16 bytes is refused in CHECK (R156). -/
theorem exec_writeArray_tooLarge (a : Word) {n : Word} (p : Vector Byte 16) {s : State} (hs : s.seq = .idle)
    (hb : s.bound = true) (hn : 16 < n.toNat) :
    exec (.writeArray a n p) s = .next (s.endWith (failed .payloadTooLarge none)) :=
  exec_eq_of_raises (k := .payloadTooLarge) hs
    (by simp [moveOf, moveWriteArray, hs, checkWriteArray, needHandle, hb, hn])

/-- Settles O6: the decoder hands P to WRITE_ARRAY alone, whose moves read its first LEN bytes. -/
theorem onlyThePayloadWithinTheLengthIsRead : Obligations.OnlyThePayloadWithinTheLengthIsRead := by
  refine ⟨fun h addr len p q ho => decode_payload_irrelevant ho addr len p q, fun addr len p => ?_,
    fun a n p q s hpq => ?_, fun a n p s hs hb hn => exec_writeArray_tooLarge a p hs hb hn⟩
  · exact decode_of_ok (d := ⟨0x5#32, addr, len, p⟩) Laws.decodeHeader_writeArray
  · exact congrArg (runCommand · s) (moveWriteArray_congr (take_toList_eq hpq) a)

end Sys2Proof.Machine
end

section
/-! SUPPORT. The numbers of the statuses and of SEQ (R90, R29), and the bus address as a byte (R95). -/

namespace Sys2Proof.Machine

/-- Settles O55: each code is the spec's, and a bus address of seven bits leaves bit 7 of its byte clear. -/
theorem codesAreTheSpecs : Obligations.CodesAreTheSpecs := by
  refine ⟨rfl, rfl, fun st => ?_, fun q => ?_, fun ba => ⟨?_, ?_⟩⟩
  · cases st <;> decide
  · cases q <;> decide
  · rw [busAddressByte, BitVec.getLsbD_setWidth, BitVec.getLsbD_of_ge ba 7 (by decide), Bool.and_false]
  · exact BitVec.toNat_setWidth_of_le (by decide)

end Sys2Proof.Machine
end

section
/-! SUPPORT. The exchanges of a command are a beginning of its table row (R97). -/

namespace Sys2Proof.Machine

theorem issuedBy_prefix (devAddr : BusAddr) (i : Instr) (q : Seq) : issuedBy devAddr i q <+: exchangesOf devAddr i := by
  cases q <;> simp [issuedBy, List.take_prefix]

theorem Underway.issued_prefix {i : Instr} {s t : State} (h : Underway i s t) : issued s t <+: exchangesOf s.devAddr i := by
  obtain ⟨q, hx, -⟩ := h.onTable
  rw [hx]
  exact issuedBy_prefix s.devAddr i q

/-- The response's delivery issues nothing. -/
theorem Ended.issued_prefix {i : Instr} {s t : State} (h : Ended i s t) : issued s t <+: exchangesOf s.devAddr i := by
  obtain ⟨r, u, hu, -, -, rfl⟩ := h
  split
  · rw [issued_deliver_commitOf]; exact hu.issued_prefix
  · exact hu.issued_prefix

/-- Settles O30: a command underway or ended has issued its row up to a state of SEQ, and all of it if it succeeded. -/
theorem exchangesFollowTheTable : Obligations.ExchangesFollowTheTable := by
  intro i s t hs hb h
  refine ⟨(exec_underway_or_ended hs hb h).elim (·.issued_prefix) (·.issued_prefix), fun r hr hok => ?_, rfl⟩
  obtain ⟨_, -, -, hx⟩ := exec_succeeds hs hb h hr hok
  exact hx

end Sys2Proof.Machine
end

section
/-! SUPPORT. The response of a command (R89): from CHECK to DONE none is delivered, and the one that DONE delivers is well
formed. -/

namespace Sys2Proof.Machine

theorem errorResponse_wellFormed (k : ErrKind) : (errorResponse k).wellFormed := by
  cases k <;> simp [Response.wellFormed, errorResponse, ErrKind.status, ErrKind.terr]

theorem okResponse_wellFormed (v : Word) {r : List Byte} (hr : r.length ≤ 127) : (okResponse v r).wellFormed := by
  have hlen : r.length % 256 = r.length := Nat.mod_eq_of_lt (by omega)
  simp [Response.wellFormed, okResponse, hlen, hr]

theorem raiseOf_responses (i : Instr) (k : ErrKind) (s : State) : (raiseOf i k s).responses = s.responses := by
  unfold raiseOf; split <;> rfl

/-- A command accepted in s has come to t with its response still to be delivered. -/
structure Answering (i : Instr) (s t : State) : Prop where
  notIdle : t.seq ≠ .idle
  responses : t.responses = s.responses
  checked : t.seq.waiting = true ∨ t.seq = .mult → checksPass i
  pendingFormed : t.seq = .done → ∀ r, t.pending = some r → r.wellFormed

theorem accept_answering (i : Instr) {s : State} (hs : s.seq = .idle) : Answering i s (accept s) := by
  constructor <;> simp [hs, Seq.waiting]

/-- In DONE, with a well-formed response. -/
theorem Answering.of_done {i : Instr} {s t : State} {r : Response} (hq : t.seq = .done)
    (hr : t.responses = s.responses) (hp : t.pending = some r) (hw : r.wellFormed) : Answering i s t where
  notIdle := by simp [hq]
  responses := hr
  checked := by simp [hq, Seq.waiting]
  pendingFormed _ r' hr' := by rw [hp] at hr'; cases hr'; exact hw

/-- Between CHECK and DONE, the command's checks passed. -/
theorem Answering.of_checked {i : Instr} {s t : State} (hq : t.seq.waiting = true ∨ t.seq = .mult) (hc : checksPass i)
    (hr : t.responses = s.responses) : Answering i s t where
  notIdle hi := by simp [hi, Seq.waiting] at hq
  responses := hr
  checked _ := hc
  pendingFormed hd := by simp [hd, Seq.waiting] at hq

/-- An array read whose window passed receives at most 127 bytes (R129). -/
theorem length_received_of_checksPass {a n : Word} (hc : checksPass (.readArray a n)) (rx : Vector Byte 127) :
    (received rx n.toNat).length ≤ 127 := by
  obtain ⟨-, hw⟩ := hc
  have hn := len_le_of_window ((windowPasses_iff a n).1 hw)
  rwa [length_received rx hn]

theorem GoesOn.responses {i : Instr} {q : Seq} {rx : Vector Byte 127} {u v : State} (h : GoesOn i q rx u v) :
    v.responses = u.responses := by
  cases h <;> simp [sendWriteByte]

/-- What follows an Ok answer is another state past CHECK, or DONE with a response of at most 127 bytes. -/
theorem GoesOn.answering {i : Instr} {q : Seq} {rx : Vector Byte 127} {s u v : State} (h : GoesOn i q rx u v)
    (hc : checksPass i) (hu : u.responses = s.responses) : Answering i s v := by
  have hr := h.responses.trans hu
  cases h with
  | writeBytePresel a d => exact .of_checked (.inl rfl) hc hr
  | readBytePresel a => exact .of_checked (.inl rfl) hc hr
  | readArrayPresel a n => exact .of_checked (.inl rfl) hc hr
  | readArrayDummy a n => exact .of_checked (.inl rfl) hc hr
  | writeArrayPresel a n p => exact .of_checked (.inr rfl) hc hr
  | writeByteXfer a d => exact .of_done rfl hr rfl (okResponse_wellFormed _ (by simp))
  | readByteXfer a => exact .of_done rfl hr rfl (okResponse_wellFormed _ (by simp))
  | readArrayXfer a n => exact .of_done rfl hr rfl (okResponse_wellFormed _ (length_received_of_checksPass hc rx))
  | writeArrayXfer a n p => exact .of_done rfl hr rfl (okResponse_wellFormed _ (by simp))

/-- From s to t one response was delivered, well formed, and the core is idle again. -/
def Answered (s t : State) : Prop := t.seq = .idle ∧ ∃ r, t.responses = s.responses ++ [r] ∧ r.wellFormed

/-- A move delivers the response or leaves it to be delivered. -/
theorem Moved.answering {i : Instr} {s t u : State} (ht : Answering i s t) (h : Moved i t u) :
    Answering i s u ∨ Answered s u := by
  have hr := ht.responses
  cases h with
  | stays h => exact .inl ht
  | refusedCheck hq hg => exact .inl (.of_done rfl hr rfl (errorResponse_wellFormed _))
  | failsCheck k hq hk he hg =>
    exact .inl (.of_done (raiseOf_seq i k t) ((raiseOf_responses i k t).trans hr) (raiseOf_pending i k t)
      (errorResponse_wellFormed k))
  | answersAtOnce v hq hd hg => exact .inl (.of_done rfl hr rfl (okResponse_wellFormed v (by simp)))
  | preselects a hq hb hc hd => exact .inl (.of_checked (.inl rfl) hc hr)
  | transportFails x e rest hw hq hb ha =>
    exact .inl (.of_done (raiseOf_seq i _ _) ((raiseOf_responses i _ _).trans hr) (raiseOf_pending i _ _)
      (errorResponse_wellFormed _))
  | transportAnswers x rx rest _ q hs hw hb ha hg => exact .inl (hg.answering (ht.checked (.inl hw)) hr)
  | failsMult a n p hq hi hn => exact .inl (.of_done rfl hr rfl (errorResponse_wellFormed _))
  | sends a n p hq hi hn =>
    exact .inl (.of_checked (.inl rfl) (ht.checked (.inr hq)) (by simpa [sendWriteArray] using hr))
  | delivers r hq hp =>
    refine .inr ⟨rfl, r, ?_, ht.pendingFormed hq r hp⟩
    rw [deliver_responses, apply_ite State.responses, commitOf_responses, ite_self, hr]

/-- From IDLE a command has its response still to be delivered, or has delivered it. -/
theorem exec_answering_or_answered {i : Instr} {s t : State} (hs : s.seq = .idle) (h : exec i s = .next t) :
    Answering i s t ∨ Answered s t := by
  rw [exec_eq_runCommand, runCommand] at h
  refine runMoves_keeps (P := fun u => Answering i s u ∨ Answered s u) (fun u v hu hv => ?_) 5
    (.inl (accept_answering i hs)) h
  rcases hu with hu | hu
  · exact (moved_of_moveOf hv).answering hu
  · rw [(moved_of_moveOf hv).eq_of_idle hu.1]
    exact .inr hu

/-- Settles O32: a command comes to rest, in IDLE with its response delivered or waiting with none. -/
theorem everyCommandEndsWithOneResponseOrWaits : Obligations.EveryCommandEndsWithOneResponseOrWaits := by
  intro i s t hs h
  rcases exec_answering_or_answered hs h with ha | ha
  · rcases exec_rests h with hi | ⟨hw, hb, hans⟩
    · exact absurd hi ha.notIdle
    · exact .inr ⟨hw, ha.responses, hans, hb⟩
  · exact .inl ha

end Sys2Proof.Machine
end

section
/-! SUPPORT. Steps and runs: what a step is in each state (R28, R80, R243), and that none stops where SEQ is in step with the
latched command. -/

namespace Sys2Proof.Machine

/-! ### One step -/

/-- In IDLE with nothing from the host a step changes nothing (R243). -/
theorem step_of_noCommand {s : State} (hs : s.seq = .idle) (hr : s.resetIn = none) (hh : s.host = []) :
    step s = .next s := by
  simp only [step, fetch, if_pos hs, hh, hr]

/-- Settles O42, by the three cases of a step with no reset. -/
theorem aStepRunsTheDecodedCommand : Obligations.AStepRunsTheDecodedCommand := by
  intro s hr
  exact ⟨fun d rest hs hh => step_of_idle hs hr hh, fun hs hh => step_of_noCommand hs hr hh,
    fun hs => step_of_inFlight hs hr⟩

/-! ### In step -/

/-- In IDLE every command is in step. -/
theorem inStep_of_idle (i : Instr) {s : State} (hs : s.seq = .idle) : InStep i s :=
  ⟨hs ▸ idle_mem_pathOf i, by simp [hs, Seq.waiting], by simp [hs]⟩

theorem InStep.accept {i : Instr} {s : State} (h : InStep i s) : InStep i (accept s) := by
  by_cases hs : s.seq = .idle
  · rw [accept_of_idle hs]
    exact ⟨by cases i <;> simp [pathOf], by simp [Seq.waiting], by simp⟩
  · rwa [accept_of_not_idle hs]

theorem InStep.runMoves {i : Instr} {s : State} (h : InStep i s) (k : Nat) :
    ∃ t, runMoves (moveOf i) k s = .next t ∧ InStep i t := by
  refine runMoves_answers (fun u hu => ?_) k h
  obtain ⟨t, ht⟩ := moveOf_answers hu
  exact ⟨t, ht, (moved_of_moveOf ht).inStep hu⟩

/-- A command in step answers next, and is in step where it comes to rest. -/
theorem InStep.exec {i : Instr} {s : State} (h : InStep i s) : ∃ t, exec i s = .next t ∧ InStep i t := by
  rw [exec_eq_runCommand]
  exact h.accept.runMoves 5

/-- SEQ is in step with the latched command. -/
def LatchInStep (s : State) : Prop := InStep (decode s.cmd) s

theorem Consistent.latchInStep {s : State} (h : Consistent s) : LatchInStep s :=
  ⟨h.onPath, h.busWhileWaiting, h.pendingInDone.2⟩

/-- No number of moves before a reset stops. -/
theorem LatchInStep.advance {s : State} (h : LatchInStep s) (k : Nat) : ∃ t, advance k s = .next t := by
  by_cases hs : s.seq = .idle
  · cases hh : s.host with
    | nil => exact ⟨s, by simp only [Machine.advance, fetch, if_pos hs, hh]⟩
    | cons d rest =>
      cases k with
      | zero => exact ⟨s, by simp only [Machine.advance, fetch, if_pos hs, hh]⟩
      | succ k =>
        obtain ⟨t, ht, -⟩ := (inStep_of_idle (decode d) (s := s.latch d rest) hs).accept.runMoves k
        exact ⟨t, by simp only [Machine.advance, fetch, if_pos hs, hh]; exact ht⟩
  · obtain ⟨t, ht, -⟩ := InStep.runMoves h k
    exact ⟨t, by simpa only [Machine.advance, fetch, if_neg hs] using ht⟩

/-- A command in step with the latch leaves the latch as it is. -/
theorem exec_latchInStep {s : State} (h : LatchInStep s) : ∃ t, exec (decode s.cmd) s = .next t ∧ LatchInStep t := by
  obtain ⟨t, ht, hi⟩ := InStep.exec h
  refine ⟨t, ht, ?_⟩
  rwa [LatchInStep, (exec_framed ht).cmd]

/-- A step from a state in step answers next and stays in step. -/
theorem step_latchInStep {s : State} (h : LatchInStep s) : ∃ t, step s = .next t ∧ LatchInStep t := by
  cases hr : s.resetIn with
  | some r =>
    obtain ⟨u, hu⟩ := h.advance r.after
    refine ⟨hardReset r.fate u, ?_, inStep_of_idle _ rfl⟩
    simp only [step, hr, strike, hu, andThen_next]
  | none =>
    by_cases hs : s.seq = .idle
    · cases hh : s.host with
      | nil => exact ⟨s, step_of_noCommand hs hr hh, h⟩
      | cons d rest =>
        rw [step_of_idle hs hr hh]
        exact exec_latchInStep (s := s.latch d rest) (inStep_of_idle _ hs)
    · rw [step_of_inFlight hs hr]
      exact exec_latchInStep h

/-! ### Runs -/

/-- Where every step from a state with P answers next and keeps P, no run stops. -/
theorem run_answers {M : Host.Core} {P : M.State → Prop} (hP : ∀ s, P s → ∃ t, M.step s = .next t ∧ P t) (k : Nat)
    {s : M.State} (hs : P s) : ∃ t, M.run k s = .next t := by
  induction k generalizing s with
  | zero => exact ⟨s, rfl⟩
  | succ k ih =>
    obtain ⟨t, ht, hPt⟩ := hP s hs
    simp only [Host.Core.run, ht]
    exact ih hPt

/-- Settles O50: in a consistent state SEQ is in step with the latched command, and every step keeps it so. -/
theorem consistentRunsNeverStop : Obligations.ConsistentRunsNeverStop :=
  fun _ h k => run_answers (M := core) (fun _ => step_latchInStep) k h.latchInStep

end Sys2Proof.Machine
end

section
/-! SUPPORT. The translator's functions over the whole address range: the bounds (R121), the conversion by quadrant (R122 to
R124), and the exact sum of the window check (R125 to R129). -/

namespace Sys2Proof.Machine

/-! ### Bounds and conversion -/

/-- Settles O9: the two outcomes of the bounds check. -/
theorem boundsCheckFailsFrom512 : Obligations.BoundsCheckFailsFrom512 :=
  fun _ => ⟨validateBounds_ok, validateBounds_error⟩

theorem inPageOffset_eq_ofNat (a : Word) : inPageOffset a = BitVec.ofNat 8 a.toNat := by
  apply BitVec.eq_of_toNat_eq
  rw [inPageOffset_toNat, BitVec.toNat_ofNat]

/-- The first page, quadrants 0 and 1 (R122). -/
theorem convert_low {a : Word} (h : a.toNat < 256) : convert a = .ok (Config.pageFn, BitVec.ofNat 8 a.toNat) := by
  rw [convert_ok (by omega), pageSelect_low h, inPageOffset_eq_ofNat]

/-- The second page, quadrants 2 and 3 (R122). -/
theorem convert_high {a : Word} (h : 256 ≤ a.toNat) (h' : a.toNat < 512) :
    convert a = .ok (Config.pageFn ||| 1#7, BitVec.ofNat 8 a.toNat) := by
  rw [convert_ok h', pageSelect_high h h', inPageOffset_eq_ofNat]

/-- Settles O10: two quadrants lie on each page. -/
theorem conversionGoesByQuadrant : Obligations.ConversionGoesByQuadrant := fun _ =>
  ⟨fun _ => convert_low (by omega), fun _ _ => convert_low (by omega), fun _ _ => convert_high (by omega) (by omega),
    fun _ _ => convert_high (by omega) (by omega), convert_error, convert_ok⟩

/-- Every conversion that succeeds is of an address of range, and gives its two parts. -/
theorem convert_eq_ok_iff (a : Word) (ps : BusAddr) (off : Byte) :
    convert a = .ok (ps, off) ↔ a.toNat < 512 ∧ pageSelect a = ps ∧ inPageOffset a = off := by
  by_cases ha : a.toNat < 512
  · simp [convert_ok ha, ha]
  · simp [convert_error (Nat.le_of_not_lt ha), ha]

/-- The quadrants are 128 bytes each (R52). -/
theorem quadrant_toNat (a : Word) : (quadrant a).toNat = a.toNat / 128 % 4 := by
  simp [quadrant, Nat.shiftRight_eq_div_pow]

/-- The odd quadrants are the upper halves of the pages (R124). -/
theorem quadrant_parity (a : Word) : (quadrant a).toNat % 2 = (inPageOffset a).toNat / 128 := by
  rw [quadrant_toNat, inPageOffset_toNat]
  omega

/-- Settles O12: the parity of the quadrant is the half of the page that the offset lies in. -/
theorem offsetsFollowTheQuadrantsParity : Obligations.OffsetsFollowTheQuadrantsParity := by
  intro a ps off h
  obtain ⟨-, -, rfl⟩ := (convert_eq_ok_iff a ps off).1 h
  have hoff := (inPageOffset a).isLt
  have hparity : ∀ {q : BitVec 2}, a.extractLsb' 7 2 = q → q.toNat % 2 = (inPageOffset a).toNat / 128 :=
    fun hq => hq ▸ quadrant_parity a
  constructor
  · intro hq
    have heven : 0 = (inPageOffset a).toNat / 128 := hq.elim hparity hparity
    omega
  · intro hq
    have hodd : 1 = (inPageOffset a).toNat / 128 := hq.elim hparity hparity
    omega

/-! ### The window -/

/-- The window maximum of an address, by `off[7] = a[7]` (R125). -/
theorem windowMax_inPageOffset (a : Word) :
    windowMax (inPageOffset a) = if a.getLsbD 7 then 0xFF else 0x7F := by
  simp [windowMax, inPageOffset]

/-- Every n above 0xFF is past both maxima (R127). -/
theorem windowMax_lt_of_large {n : Word} (hn : 0xFF < n.toNat) (off : Byte) : windowMax off < off.toNat + n.toNat := by
  have := windowMax_le off
  omega

/-- Settles O13: each clause is an outcome of the window check. -/
theorem windowCheckComparesTheExactSum : Obligations.WindowCheckComparesTheExactSum := by
  intro a n
  rw [← windowMax_inPageOffset, ← inPageOffset_toNat]
  exact ⟨validateWindow_error, fun ha => ⟨validateWindow_ok ha, validateWindow_overflow ha,
    fun hn => validateWindow_overflow ha (windowMax_lt_of_large hn _)⟩⟩

/-- The window check passes exactly where conversion succeeds and the window passes (R128). -/
theorem validateWindow_eq_ok_iff (a n : Word) : validateWindow a n = .ok () ↔ a.toNat < 512 ∧ windowPasses a n := by
  rw [windowPasses_iff]
  by_cases ha : a.toNat < 512
  · by_cases hw : (inPageOffset a).toNat + n.toNat ≤ windowMax (inPageOffset a)
    · simp [validateWindow_ok ha hw, ha, hw]
    · simp [validateWindow_overflow ha (Nat.lt_of_not_le hw), hw]
  · simp [validateWindow_error (Nat.le_of_not_lt ha), ha]

/-- The window by the half of the page the access lies in (R125, R128). -/
theorem windowPasses_iff_halves (a n : Word) :
    windowPasses a n ↔ a.toNat % 256 + n.toNat ≤ 0x7F ∨ (0x80 ≤ a.toNat % 256 ∧ a.toNat % 256 + n.toNat ≤ 0xFF) := by
  rw [windowPasses, inPageOffset_toNat]
  split <;> omega

/-- The largest length passes at the first address of each quadrant only (R129). -/
theorem validateWindow_127_iff (a : Word) : validateWindow a 127#32 = .ok () ↔
    a = 0x000#32 ∨ a = 0x080#32 ∨ a = 0x100#32 ∨ a = 0x180#32 := by
  rw [validateWindow_eq_ok_iff, windowPasses_iff_halves]
  simp only [← BitVec.toNat_inj, BitVec.toNat_ofNat]
  omega

/-- At the last byte of a quadrant only the empty access passes (R129). -/
theorem validateWindow_lastByte_iff {a : Word} (n : Word) (ha : a.toNat < 512) (hlast : a.toNat % 128 = 127) :
    validateWindow a n = .ok () ↔ n = 0#32 := by
  rw [validateWindow_eq_ok_iff, windowPasses_iff_halves, ← BitVec.toNat_inj, BitVec.toNat_ofNat]
  omega

/-- Settles O14: each consequence is arithmetic on the exact sum. -/
theorem windowConsequences : Obligations.WindowConsequences := by
  refine ⟨fun a ha => ?_, fun a n h => ?_, validateWindow_127_iff, fun a n => validateWindow_lastByte_iff n,
    fun a n h _ => ?_, fun a ha => ⟨?_, ?_, ?_, ?_⟩⟩
  · rw [validateWindow_eq_ok_iff, windowPasses_iff_halves, BitVec.toNat_ofNat]
    omega
  · obtain ⟨-, hw⟩ := (validateWindow_eq_ok_iff a n).1 h
    exact len_le_of_window ((windowPasses_iff a n).1 hw)
  · obtain ⟨-, hw⟩ := (validateWindow_eq_ok_iff a n).1 h
    rw [windowPasses_iff, inPageOffset_toNat, windowMax_inPageOffset] at hw
    exact Nat.sub_le_sub_right hw 1
  all_goals
    rw [validateWindow_eq_ok_iff, windowPasses_iff_halves, BitVec.toNat_ofNat]
    omega

end Sys2Proof.Machine
end

section
/-! SUPPORT. The translator's commands from IDLE (R130 to R132): each is answered from its operands, and nothing else changes
(R120). -/

namespace Sys2Proof.Machine

/-- From IDLE a command on the short path that writes nothing at its end delivers what its check answers, and changes nothing
else (R150). -/
theorem runCommand_short_endWith {check : State → State} {s : State} {r : Response} (hs : s.seq = .idle)
    (hc : check (accept s) = { accept s with seq := .done, pending := some r }) :
    runCommand (shortMove check commitNothing) s = .next (s.endWith r) := by
  rw [runCommand_short hs (by rw [hc]) (by rw [hc]), commitNothing_eq, ite_self, hc, accept_of_idle hs]
  congr 1
  apply State.ext
  case seq => exact hs.symm
  all_goals rfl

/-! ### The outcomes -/

theorem exec_validateBounds_ok {a : Word} (ha : a.toNat < 512) {s : State} (hs : s.seq = .idle) :
    exec (.validateBounds a) s = .next (s.endWith (succeeded 0#32 [])) :=
  runCommand_short_endWith hs (by rw [checkValidateBounds, validateBounds_ok ha]; rfl)

theorem exec_validateBounds_error {a : Word} (ha : 512 ≤ a.toNat) {s : State} (hs : s.seq = .idle) :
    exec (.validateBounds a) s = .next (s.endWith (failed .addressOutOfRange none)) :=
  runCommand_short_endWith hs (by rw [checkValidateBounds, validateBounds_error ha]; rfl)

theorem exec_convert_ok {a : Word} (ha : a.toNat < 512) {s : State} (hs : s.seq = .idle) :
    exec (.convert a) s = .next (s.endWith (succeeded (packPhysical (pageSelect a) (inPageOffset a)) [])) :=
  runCommand_short_endWith hs (by rw [checkConvert, convert_ok ha]; rfl)

theorem exec_convert_error {a : Word} (ha : 512 ≤ a.toNat) {s : State} (hs : s.seq = .idle) :
    exec (.convert a) s = .next (s.endWith (failed .addressConversionFailure none)) :=
  runCommand_short_endWith hs (by rw [checkConvert, convert_error ha]; rfl)

theorem exec_validateWindow_ok {a n : Word} (ha : a.toNat < 512)
    (hw : (inPageOffset a).toNat + n.toNat ≤ windowMax (inPageOffset a)) {s : State} (hs : s.seq = .idle) :
    exec (.validateWindow a n) s = .next (s.endWith (succeeded 0#32 [])) :=
  runCommand_short_endWith hs (by rw [checkValidateWindow, validateWindow_ok ha hw]; rfl)

theorem exec_validateWindow_overflow {a n : Word} (ha : a.toNat < 512)
    (hw : windowMax (inPageOffset a) < (inPageOffset a).toNat + n.toNat) {s : State} (hs : s.seq = .idle) :
    exec (.validateWindow a n) s = .next (s.endWith (failed .pageWriteWindowOverflow none)) :=
  runCommand_short_endWith hs (by rw [checkValidateWindow, validateWindow_overflow ha hw]; rfl)

theorem exec_validateWindow_error {a : Word} (ha : 512 ≤ a.toNat) (n : Word) {s : State} (hs : s.seq = .idle) :
    exec (.validateWindow a n) s = .next (s.endWith (failed .addressConversionFailure none)) :=
  runCommand_short_endWith hs (by rw [checkValidateWindow, validateWindow_error ha]; rfl)

/-! ### CONVERT's result word (R91) -/

/-- Every bit of the result word: the offset below bit 8, the page select from bit 8 on. -/
theorem packPhysical_getLsbD (ps : BusAddr) (off : Byte) {j : Nat} (hj : j < 32) :
    (packPhysical ps off).getLsbD j = if j < 8 then off.getLsbD j else ps.getLsbD (j - 8) := by
  simp only [packPhysical, BitVec.getLsbD_or, BitVec.getLsbD_shiftLeft, BitVec.getLsbD_setWidth]
  by_cases h : j < 8
  · simp [h, hj]
  · have hpos : j - 8 < 32 := by omega
    simp [h, hj, hpos, off.getLsbD_of_ge j (Nat.le_of_not_lt h)]

theorem packPhysical_pageSelect (ps : BusAddr) (off : Byte) : (packPhysical ps off).extractLsb' 8 7 = ps := by
  apply BitVec.eq_of_getLsbD_eq
  intro j hj
  rw [BitVec.getLsbD_extractLsb', packPhysical_getLsbD ps off (by omega)]
  simp [hj]

theorem packPhysical_offset (ps : BusAddr) (off : Byte) : (packPhysical ps off).extractLsb' 0 8 = off := by
  apply BitVec.eq_of_getLsbD_eq
  intro j hj
  rw [BitVec.getLsbD_extractLsb', packPhysical_getLsbD ps off (by omega)]
  simp [hj]

theorem packPhysical_upper (ps : BusAddr) (off : Byte) : (packPhysical ps off).extractLsb' 15 17 = 0#17 := by
  apply BitVec.eq_of_getLsbD_eq
  intro j hj
  rw [BitVec.getLsbD_extractLsb', packPhysical_getLsbD ps off (by omega), if_neg (by omega),
    ps.getLsbD_of_ge _ (by omega)]
  simp

/-! ### The rules -/

/-- Settles O15: VALIDATE_BOUNDS answers as the bounds check does. -/
theorem validateBoundsReportsTheBoundsCheck : Obligations.ValidateBoundsReportsTheBoundsCheck :=
  fun _ _ hs => ⟨fun ha => exec_validateBounds_ok ha hs, fun ha => exec_validateBounds_error ha hs⟩

/-- Settles O16: RVAL is the packed pair of page select and offset. -/
theorem convertReturnsThePhysicalAddress : Obligations.ConvertReturnsThePhysicalAddress :=
  fun _ _ hs => ⟨fun ha => ⟨_, packPhysical_pageSelect _ _, packPhysical_offset _ _, packPhysical_upper _ _,
    exec_convert_ok ha hs⟩, fun ha => exec_convert_error ha hs⟩

/-- Settles O17: VALIDATE_WINDOW answers as the window check does. -/
theorem validateWindowReportsTheWindowCheck : Obligations.ValidateWindowReportsTheWindowCheck := by
  intro a n s hs
  rw [← windowMax_inPageOffset, ← inPageOffset_toNat]
  exact ⟨fun ha hw => exec_validateWindow_ok ha hw hs, fun ha hw => exec_validateWindow_overflow ha hw hs,
    fun ha => exec_validateWindow_error ha n hs⟩

/-- Settles O18: which outcome a translator command has is decided by its operands. -/
theorem translatorCommandsReadNoRegister : Obligations.TranslatorCommandsReadNoRegister := by
  intro a n i hi
  simp only [List.mem_cons, List.not_mem_nil, or_false] at hi
  rcases Nat.lt_or_ge a.toNat 512 with ha | ha <;> rcases hi with rfl | rfl | rfl
  · exact ⟨_, fun _ => exec_validateBounds_ok ha⟩
  · exact ⟨_, fun _ => exec_convert_ok ha⟩
  · rcases Nat.lt_or_ge (windowMax (inPageOffset a)) ((inPageOffset a).toNat + n.toNat) with hw | hw
    · exact ⟨_, fun _ => exec_validateWindow_overflow ha hw⟩
    · exact ⟨_, fun _ => exec_validateWindow_ok ha hw⟩
  · exact ⟨_, fun _ => exec_validateBounds_error ha⟩
  · exact ⟨_, fun _ => exec_convert_error ha⟩
  · exact ⟨_, fun _ => exec_validateWindow_error ha n⟩

end Sys2Proof.Machine
end

section
/-! SUPPORT. The invariant (R24, R33, R89, R97, R150): a move, a command and a reset keep every state consistent. -/

namespace Sys2Proof.Machine

/-! ### The outstanding exchange -/

/-- The page select of an address in range is one of the two page-select addresses (R92). -/
theorem pageSelect_eq_ite {a : Word} (ha : a.toNat < 512) :
    pageSelect a = if a.toNat < 256 then Config.pageFn else Config.pageFn ||| 1#7 := by
  split
  next h => exact pageSelect_low h
  next h => exact pageSelect_high (Nat.le_of_not_lt h) ha

theorem checksPass_lt {i : Instr} {a : Word} (hd : dataAddress i = some a) (hc : checksPass i) : a.toNat < 512 := by
  cases i <;> simp only [dataAddress, reduceCtorEq, Option.some.injEq] at hd <;> subst hd
  case writeByte => exact hc
  case readByte => exact hc
  case writeArray => obtain ⟨-, ha, -⟩ := hc; exact ha
  case readArray => obtain ⟨ha, -⟩ := hc; exact ha

theorem outstanding_presel {i : Instr} {a : Word} (hd : dataAddress i = some a) (devAddr : BusAddr) :
    outstanding devAddr i .presel = some (preselExchange (pageSelect a)) := by
  cases i <;> simp only [dataAddress, reduceCtorEq, Option.some.injEq] at hd <;> subst hd <;> rfl

/-- R97 gives a command an exchange only in the waiting states of its path. -/
theorem waiting_of_outstanding {devAddr : BusAddr} {i : Instr} {q : Seq} {x : Exchange}
    (h : outstanding devAddr i q = some x) : q.waiting = true ∧ q ∈ pathOf i := by
  cases i <;> cases q <;> simp [outstanding, Seq.waiting, pathOf] at h ⊢

/-- The exchange of a command past its checks has one of R97's forms. -/
theorem outstanding_wellFormed {devAddr : BusAddr} {i : Instr} {q : Seq} {x : Exchange}
    (h : outstanding devAddr i q = some x) (hd : deviceBusAddress devAddr) (hc : checksPass i)
    (hm : ∀ a n p, i = .writeArray a n p → q = .xfer → legalMultiple n = true) : x.wellFormed := by
  have hpre : ∀ {a}, dataAddress i = some a → (Exchange.write (pageSelect a) Config.preselFill).wellFormed := by
    intro a ha
    rw [pageSelect_eq_ite (checksPass_lt ha hc)]
    exact .inl ⟨ite_eq_or_eq _ _ _, rfl⟩
  cases i <;> cases q <;> simp only [outstanding, reduceCtorEq, Option.some.injEq] at h <;> subst h
  case writeByte.presel => exact hpre rfl
  case readByte.presel => exact hpre rfl
  case writeArray.presel => exact hpre rfl
  case readArray.presel => exact hpre rfl
  case writeByte.xfer => exact .inr ⟨hd, by simp, by simp⟩
  case readByte.xfer => exact ⟨hd, rfl, by decide⟩
  case readArray.dummy => exact ⟨hd, rfl, by decide⟩
  case readArray.xfer a n =>
    obtain ⟨-, hw⟩ := hc
    exact ⟨hd, rfl, len_le_of_window ((windowPasses_iff a n).1 hw)⟩
  case writeArray.xfer a n p =>
    have hn := hm a n p rfl rfl
    simp only [legalMultiple, Bool.or_eq_true, beq_iff_eq] at hn
    have hlen : (p.toList.take n.toNat).length = n.toNat := by simp; omega
    exact .inr ⟨hd, by simp only [List.length_cons, hlen]; omega, by simp only [List.length_cons, hlen]; omega⟩

/-! ### What a consistent state gives -/

theorem Consistent.bus_eq_none {s : State} (h : Consistent s) (hw : s.seq.waiting = false) : s.bus = none := by
  rw [h.busIsCommands, hw]; rfl

theorem Consistent.pending_eq_none {s : State} (h : Consistent s) (hq : s.seq ≠ .done) : s.pending = none :=
  Option.not_isSome_iff_eq_none.1 fun hp => hq (h.pendingInDone.1 hp)

theorem Consistent.outstanding_of_bus {s : State} (h : Consistent s) {x : Exchange} (hb : s.bus = some x) :
    outstanding s.devAddr (decode s.cmd) s.seq = some x := by
  have hbus := h.busIsCommands
  rw [hb] at hbus
  split at hbus
  · exact hbus.symm
  · cases hbus

/-- The outstanding exchange has one of R97's forms. -/
theorem Consistent.bus_wellFormed {s : State} (h : Consistent s) {x : Exchange} (hb : s.bus = some x) : x.wellFormed := by
  have hx := h.outstanding_of_bus hb
  obtain ⟨hbound, hc⟩ := h.checked (.inl (waiting_of_outstanding hx).1)
  exact outstanding_wellFormed hx (h.handle hbound) hc h.multiple

theorem Exchange.readLen_le {x : Exchange} (h : x.wellFormed) : x.readLen ≤ 127 := by
  cases x with
  | write ba bytes => exact Nat.zero_le 127
  | writeRead ba wbytes n => obtain ⟨-, -, hn⟩ := h; exact hn

/-- However the outstanding exchange ends, the trace stays in form (R96). -/
theorem Consistent.trace_append {s : State} (h : Consistent s) {x : Exchange} {e : Ending} (hb : s.bus = some x)
    (he : ∀ r, e = .ok r → r.length = x.readLen) : ∀ y ∈ s.trace ++ [⟨x, e⟩], y.wellFormed := by
  intro y hy
  rcases List.mem_append.1 hy with hy | hy
  · exact h.traceFormed y hy
  · rw [List.mem_singleton.1 hy]
    exact ⟨h.bus_wellFormed hb, he⟩

/-! ### A move -/

/-- t differs from s in no latch, handle or response, and its trace is in form. -/
structure Onward (s t : State) : Prop where
  cmd : t.cmd = s.cmd
  bound : t.bound = s.bound
  devAddr : t.devAddr = s.devAddr
  responses : t.responses = s.responses
  traceFormed : ∀ x ∈ t.trace, x.wellFormed

theorem Onward.raiseOf {s t : State} (h : Onward s t) (i : Instr) (k : ErrKind) : Onward s (raiseOf i k t) := by
  unfold Machine.raiseOf
  split <;> exact ⟨h.cmd, h.bound, h.devAddr, h.responses, h.traceFormed⟩

theorem Consistent.of_done {s t : State} {r : Response} (h : Consistent s) (k : Onward s t) (hq : t.seq = .done)
    (hb : t.bus = none) (hp : t.pending = some r) (hr : r.wellFormed) : Consistent t where
  onPath := by rw [hq]; cases decode t.cmd <;> simp [pathOf]
  busIsCommands := by rw [hq, hb]; rfl
  busWhileWaiting hw := by rw [hq] at hw; cases hw
  pendingInDone := by simp [hq, hp]
  checked hw := by simp [hq, Seq.waiting] at hw
  multiple _ _ _ _ hx := by rw [hq] at hx; cases hx
  handle hbd := by rw [k.devAddr]; exact h.handle (k.bound ▸ hbd)
  pendingFormed r' hr' := by rw [hp] at hr'; cases hr'; exact hr
  responsesFormed := by rw [k.responses]; exact h.responsesFormed
  traceFormed := k.traceFormed

theorem Consistent.of_waiting {s t : State} {x : Exchange} (h : Consistent s) (k : Onward s t)
    (hc : s.bound = true ∧ checksPass (decode s.cmd)) (hp : t.pending = none) (hb : t.bus = some x)
    (hx : outstanding s.devAddr (decode s.cmd) t.seq = some x)
    (hm : ∀ a n p, decode s.cmd = .writeArray a n p → t.seq = .xfer → legalMultiple n = true) : Consistent t := by
  obtain ⟨hw, hpath⟩ := waiting_of_outstanding hx
  have hd : t.seq ≠ .done := fun hd => by rw [hd] at hw; cases hw
  exact {
    onPath := by rwa [k.cmd]
    busIsCommands := by rw [hw, k.cmd, k.devAddr, hx, hb]; rfl
    busWhileWaiting := fun _ => by rw [hb]; rfl
    pendingInDone := by simp [hp, hd]
    checked := fun _ => by rwa [k.bound, k.cmd]
    multiple := by rwa [k.cmd]
    handle := fun hbd => by rw [k.devAddr]; exact h.handle (k.bound ▸ hbd)
    pendingFormed := fun r hr => by rw [hp] at hr; cases hr
    responsesFormed := by rw [k.responses]; exact h.responsesFormed
    traceFormed := k.traceFormed }

theorem Consistent.of_mult {s t : State} {a n : Word} {p : Vector Byte 16} (h : Consistent s) (k : Onward s t)
    (hi : decode s.cmd = .writeArray a n p) (hc : s.bound = true ∧ checksPass (decode s.cmd)) (hq : t.seq = .mult)
    (hp : t.pending = none) (hb : t.bus = none) : Consistent t where
  onPath := by rw [hq, k.cmd, hi]; simp [pathOf]
  busIsCommands := by rw [hq, hb]; rfl
  busWhileWaiting hw := by rw [hq] at hw; cases hw
  pendingInDone := by simp [hq, hp]
  checked _ := by rwa [k.bound, k.cmd]
  multiple _ _ _ _ hx := by rw [hq] at hx; cases hx
  handle hbd := by rw [k.devAddr]; exact h.handle (k.bound ▸ hbd)
  pendingFormed r hr := by rw [hp] at hr; cases hr
  responsesFormed := by rw [k.responses]; exact h.responsesFormed
  traceFormed := k.traceFormed

/-- In IDLE nothing is outstanding or pending, and only DEVADDR, the responses and the trace have a form. -/
theorem consistent_of_idle {s : State} (hq : s.seq = .idle) (hb : s.bus = none) (hp : s.pending = none)
    (hh : s.bound = true → deviceBusAddress s.devAddr) (hr : ∀ r ∈ s.responses, r.wellFormed)
    (ht : ∀ x ∈ s.trace, x.wellFormed) : Consistent s where
  onPath := hq ▸ idle_mem_pathOf _
  busIsCommands := by rw [hq, hb]; rfl
  busWhileWaiting hw := by rw [hq] at hw; cases hw
  pendingInDone := by simp [hq, hp]
  checked hw := by simp [hq, Seq.waiting] at hw
  multiple _ _ _ _ hx := by rw [hq] at hx; cases hx
  handle := hh
  pendingFormed r hr := by rw [hp] at hr; cases hr
  responsesFormed := hr
  traceFormed := ht

/-- What follows an Ok answer is consistent: u is s with the exchange settled. -/
theorem Consistent.goesOn {s u v : State} {rx : Vector Byte 127} (h : Consistent s) (hw : s.seq.waiting = true)
    (k : Onward s u) (hb : u.bus = none) (hp : u.pending = none) (hg : GoesOn (decode s.cmd) s.seq rx u v) :
    Consistent v := by
  have hc := h.checked (.inl hw)
  obtain ⟨hcmd, hbound, hdev, hresp, htr⟩ := k
  generalize hi : decode s.cmd = i at hg
  generalize s.seq = q at hg
  cases hg with
  | writeBytePresel a d =>
    rw [sendWriteByte_eq]
    exact h.of_waiting ⟨by simpa, by simpa, by simpa, by simpa, by simpa⟩ hc (by simpa) rfl (by rw [hi, hdev]; rfl)
      (by simp [hi])
  | readBytePresel a =>
    exact h.of_waiting ⟨hcmd, hbound, hdev, hresp, htr⟩ hc hp rfl (by rw [hi, hdev]; rfl) (by simp [hi])
  | readArrayPresel a n =>
    exact h.of_waiting ⟨hcmd, hbound, hdev, hresp, htr⟩ hc hp rfl (by rw [hi, hdev]; rfl) (by simp [hi])
  | readArrayDummy a n =>
    exact h.of_waiting ⟨hcmd, hbound, hdev, hresp, htr⟩ hc hp rfl (by rw [hi, hdev]; rfl) (by simp [hi])
  | writeArrayPresel a n p => exact h.of_mult ⟨hcmd, hbound, hdev, hresp, htr⟩ hi hc rfl hp hb
  | writeByteXfer a d =>
    exact h.of_done ⟨hcmd, hbound, hdev, hresp, htr⟩ rfl hb rfl (okResponse_wellFormed _ (by simp))
  | writeArrayXfer a n p =>
    exact h.of_done ⟨hcmd, hbound, hdev, hresp, htr⟩ rfl hb rfl (okResponse_wellFormed _ (by simp))
  | readByteXfer a =>
    exact h.of_done ⟨by simpa, by simpa, by simpa, by simpa, by simpa⟩ rfl (by simpa) rfl
      (okResponse_wellFormed _ (by simp))
  | readArrayXfer a n =>
    have hlen := length_received_of_checksPass (hi ▸ hc.2) rx
    exact h.of_done ⟨by simpa, by simpa, by simpa, by simpa, by simpa⟩ rfl (by simpa) rfl (okResponse_wellFormed _ hlen)

/-- Delivering the response, after what the command writes at its end, leaves a consistent state. -/
theorem Consistent.deliver {s : State} {r : Response} (h : Consistent s) (hq : s.seq = .done) (hp : s.pending = some r)
    (i : Instr) : Consistent (deliver r (if r.status = .ok then commitOf i s else s)) := by
  have hb : s.bus = none := h.bus_eq_none (by rw [hq]; rfl)
  have hr : ∀ q ∈ s.responses ++ [r], q.wellFormed := by
    intro q hmem
    rcases List.mem_append.1 hmem with hmem | hmem
    · exact h.responsesFormed q hmem
    · rw [List.mem_singleton.1 hmem]; exact h.pendingFormed r hp
  split
  case isTrue =>
    obtain ⟨htr, hbus, -⟩ := commitOf_noTraffic i s
    refine consistent_of_idle rfl (hbus.trans hb) rfl ?_ (by rwa [deliver_responses, commitOf_responses])
      (by rw [deliver_trace, htr]; exact h.traceFormed)
    cases i
    case construct a2 a1 a0 => exact fun _ => ⟨a2, a1, a0, rfl⟩
    case release => intro hbd; cases hbd
    all_goals exact h.handle
  case isFalse => exact consistent_of_idle rfl hb rfl h.handle hr h.traceFormed

/-- The inductive step: a move of the latched command keeps a state consistent. -/
theorem Moved.consistent {s t : State} (h : Consistent s) (hm : Moved (decode s.cmd) s t) : Consistent t := by
  have here : Onward s s := ⟨rfl, rfl, rfl, rfl, h.traceFormed⟩
  have hbus : ∀ {q}, s.seq = q → q.waiting = false → s.bus = none := fun hq hw => h.bus_eq_none (hq ▸ hw)
  cases hm with
  | stays _ => exact h
  | refusedCheck hq _ =>
    exact h.of_done ⟨rfl, rfl, rfl, rfl, h.traceFormed⟩ rfl (hbus hq rfl) rfl (errorResponse_wellFormed _)
  | failsCheck k hq _ _ _ =>
    obtain ⟨-, kbus, -⟩ := raiseOf_noTraffic (decode s.cmd) k s
    exact h.of_done (here.raiseOf _ k) (raiseOf_seq _ k s) (kbus.trans (hbus hq rfl)) (raiseOf_pending _ k s)
      (errorResponse_wellFormed k)
  | answersAtOnce v hq _ _ =>
    exact h.of_done ⟨rfl, rfl, rfl, rfl, h.traceFormed⟩ rfl (hbus hq rfl) rfl (okResponse_wellFormed v (by simp))
  | preselects a hq hb hc hd =>
    exact h.of_waiting ⟨rfl, rfl, rfl, rfl, h.traceFormed⟩ ⟨hb, hc⟩ (h.pending_eq_none (by simp [hq])) rfl
      (outstanding_presel hd _) (by simp)
  | transportFails x e rest hw hq hb ha =>
    have k : Onward s (settle x (.err e) rest s) := ⟨rfl, rfl, rfl, rfl, h.trace_append hb (by simp)⟩
    obtain ⟨-, kbus, -⟩ := raiseOf_noTraffic (decode s.cmd) (.transportError e) (settle x (.err e) rest s)
    exact h.of_done (k.raiseOf _ _) (raiseOf_seq _ _ _) kbus (raiseOf_pending _ _ _) (errorResponse_wellFormed _)
  | transportAnswers x rx rest _ q hs hw hb ha hg =>
    subst hs
    have hlen : (received rx x.readLen).length = x.readLen :=
      length_received rx (Exchange.readLen_le (h.bus_wellFormed hb))
    have hd : s.seq ≠ .done := fun hd => by rw [hd] at hw; cases hw
    have k : Onward s (settle x (.ok (received rx x.readLen)) rest s) :=
      ⟨rfl, rfl, rfl, rfl, h.trace_append hb (by simp [hlen])⟩
    exact h.goesOn hw k rfl (h.pending_eq_none hd) hg
  | failsMult a n p hq _ _ =>
    exact h.of_done ⟨rfl, rfl, rfl, rfl, h.traceFormed⟩ rfl (hbus hq rfl) rfl (errorResponse_wellFormed _)
  | sends a n p hq hi hn =>
    have hc := h.checked (.inr hq)
    rw [sendWriteArray_eq a (toNat_le_of_legalMultiple hn)]
    refine h.of_waiting ⟨by simp, by simp, by simp, by simp, by simpa using h.traceFormed⟩ hc ?_ rfl (by rw [hi]; rfl) ?_
    · simpa using h.pending_eq_none (by simp [hq])
    · rintro a' n' p' hi' -
      rw [hi] at hi'
      cases hi'
      exact hn
  | delivers r hq hp => exact h.deliver hq hp _

/-! ### A run of moves and a step -/

/-- From IDLE the latched command is accepted. -/
theorem Consistent.accept {s : State} (h : Consistent s) : Consistent (accept s) := by
  by_cases hs : s.seq = .idle
  · rw [accept_of_idle hs]
    have hb : s.bus = none := h.bus_eq_none (by rw [hs]; rfl)
    have hp : s.pending = none := h.pending_eq_none (by simp [hs])
    exact { h with
      onPath := by cases decode s.cmd <;> simp [pathOf]
      busIsCommands := hb
      busWhileWaiting := by simp [Seq.waiting]
      pendingInDone := by simp [hp]
      checked := by simp [Seq.waiting]
      multiple := by simp }
  · rwa [accept_of_not_idle hs]

theorem Consistent.runMoves {s t : State} (h : Consistent s) (k : Nat)
    (hk : runMoves (moveOf (decode s.cmd)) k s = .next t) : Consistent t := by
  refine (runMoves_keeps (P := fun u => Consistent u ∧ u.cmd = s.cmd) (fun u v hu hv => ?_) k ⟨h, rfl⟩ hk).1
  obtain ⟨hu, hcmd⟩ := hu
  have hm := moved_of_moveOf hv
  exact ⟨Moved.consistent hu (by rwa [hcmd]), hm.framed.cmd.trans hcmd⟩

/-- Latching the host's next descriptor in IDLE (R80). -/
theorem Consistent.latch {s : State} (h : Consistent s) (hs : s.seq = .idle) (d : Descriptor) (rest : List Descriptor) :
    Consistent (s.latch d rest) :=
  consistent_of_idle hs (h.bus_eq_none (by rw [hs]; rfl)) (h.pending_eq_none (by simp [hs])) h.handle h.responsesFormed
    h.traceFormed

theorem exec_consistent {s t : State} (h : Consistent s) (he : exec (decode s.cmd) s = .next t) : Consistent t := by
  rw [exec_eq_runCommand, runCommand] at he
  exact h.accept.runMoves 5 (by rwa [accept_cmd])

/-- However far a command gets before a reset, the state is consistent. -/
theorem Consistent.advance {s t : State} (h : Consistent s) {k : Nat} (hk : advance k s = .next t) : Consistent t := by
  by_cases hs : s.seq = .idle
  · cases hh : s.host with
    | nil => simp only [Machine.advance, fetch, if_pos hs, hh] at hk; cases hk; exact h
    | cons d rest =>
      simp only [Machine.advance, fetch, if_pos hs, hh] at hk
      cases k with
      | zero => cases hk; exact h
      | succ k =>
        refine (h.latch hs d rest).accept.runMoves k ?_
        rw [accept_cmd]
        exact hk
  · simp only [Machine.advance, fetch, if_neg hs] at hk
    exact h.runMoves k hk

/-- A reset records the exchange in progress and leaves no handle (R260, R261). -/
theorem Consistent.hardReset {s : State} (h : Consistent s) (fate : ResetFate) : Consistent (hardReset fate s) := by
  refine consistent_of_idle rfl rfl rfl (by simp) h.responsesFormed ?_
  rw [hardReset_trace]
  cases hb : s.bus with
  | none => simpa [cutRecords] using h.traceFormed
  | some x => exact h.trace_append hb (by simp)

/-- Settles O49: a reset cuts a run of moves, any other step is a command, and each move keeps the invariant. -/
theorem everyStepKeepsConsistency : Obligations.EveryStepKeepsConsistency := by
  intro s t h ht
  cases hr : s.resetIn with
  | some r =>
    simp only [step, hr, strike] at ht
    obtain ⟨u, hu, hx⟩ := andThen_eq_next ht
    cases hx
    exact (h.advance hu).hardReset r.fate
  | none =>
    by_cases hs : s.seq = .idle
    · cases hh : s.host with
      | nil => rw [step_of_noCommand hs hr hh] at ht; cases ht; exact h
      | cons d rest =>
        rw [step_of_idle hs hr hh] at ht
        exact exec_consistent (h.latch hs d rest) ht
    · rw [step_of_inFlight hs hr] at ht
      exact exec_consistent h ht

end Sys2Proof.Machine
end

section
/-! SUPPORT. A command goes on from wherever a move leaves it (R150, R152): what it comes to from s is what it comes to from the
next state of its path. -/

namespace Sys2Proof.Machine

/-! ### Moves as many as needed -/

theorem moveOf_of_idle (i : Instr) {s : State} (hs : s.seq = .idle) : moveOf i s = .next s :=
  moveOf_of_rests (hs ▸ idle_mem_pathOf i) (.inl hs)

/-- As many moves as SEQ is away from IDLE are enough: one more changes nothing, even where a move faults. -/
theorem runMoves_succ_of_rank_le {i : Instr} {k : Nat} {s : State} (hk : s.seq.rank ≤ k) :
    runMoves (moveOf i) (k + 1) s = runMoves (moveOf i) k s := by
  induction k generalizing s with
  | zero =>
    have hs : s.seq = .idle := by cases hq : s.seq <;> simp [hq, Seq.rank] at hk; rfl
    rw [runMoves_fixed (moveOf_of_idle i hs), runMoves_zero]
  | succ k ih =>
    cases hm : moveOf i s with
    | fault e => rw [runMoves_succ, runMoves_succ, hm]; rfl
    | refused e => rw [runMoves_succ, runMoves_succ, hm]; rfl
    | next u =>
      rcases (moved_of_moveOf hm).progress with ⟨rfl, -⟩ | hr
      · rw [runMoves_fixed hm, runMoves_fixed hm]
      · rw [runMoves_succ, hm, andThen_next, ih (by omega), runMoves_succ, hm, andThen_next]

theorem Seq.rank_le_of_waiting : ∀ q : Seq, q.waiting = true → q.rank ≤ 4 := by
  intro q
  cases q <;> decide

/-- A command whose first move leaves it in u comes to what it comes to from u. -/
theorem exec_eq_exec_of_move {i : Instr} {s u : State} (h : moveOf i (accept s) = .next u) (hu : u.seq ≠ .idle) :
    exec i s = exec i u := by
  have hrank : u.seq.rank ≤ 4 := by
    rcases (moved_of_moveOf h).progress with ⟨hus, hi | ⟨hw, -, -⟩⟩ | hr
    · exact absurd (hus ▸ hi) hu
    · exact hus ▸ Seq.rank_le_of_waiting _ hw
    · have h5 : (accept s).seq.rank ≤ 5 := by cases (accept s).seq <;> decide
      omega
  rw [exec_eq_runCommand, exec_eq_runCommand, runCommand, runCommand, accept_of_not_idle hu,
    runMoves_succ, h, andThen_next, runMoves_succ_of_rank_le hrank]

/-! ### The states of a path -/

/-- From DONE a command delivers its response, after what it writes at its end if the status is OK (R158). -/
theorem exec_of_done {i : Instr} {s : State} {r : Response} (hq : s.seq = .done) (hp : s.pending = some r) :
    exec i s = .next (deliver r (if r.status = .ok then commitOf i s else s)) := by
  have hm : moveOf i (accept s) = .next (deliver r (if r.status = .ok then commitOf i s else s)) := by
    rw [accept_of_not_idle (by simp [hq]), moveOf_of_done hq, doneMove_of_pending hp]
  exact exec_eq_of_rests hm (idle_mem_pathOf i) (.inl rfl)

/-- While the transport has not answered, a command stays as it is (R152). -/
theorem exec_of_silent {i : Instr} {s : State} (hp : s.seq ∈ pathOf i) (hw : s.seq.waiting = true)
    (hb : s.bus.isSome = true) (ha : s.answers = []) : exec i s = .next s := by
  have hr : rests s := .inr ⟨hw, hb, ha⟩
  refine exec_eq_of_rests ?_ hp hr
  rw [accept_of_not_idle (fun hi => by rw [hi] at hw; cases hw), moveOf_of_rests hp hr]

theorem GoesOn.target_ne_idle {i : Instr} {q : Seq} {rx : Vector Byte 127} {u v : State} (h : GoesOn i q rx u v) :
    v.seq ≠ .idle := by
  cases h <;> simp [sendWriteByte]

/-- With an Ok answer a command goes on as GoesOn says (R150). -/
theorem GoesOn.exec_eq {i : Instr} {q : Seq} {x : Exchange} {rx : Vector Byte 127} {rest : List Answer} {s t : State}
    (hq : s.seq = q) (hb : s.bus = some x) (ha : s.answers = .ok rx :: rest)
    (h : GoesOn i q rx (settle x (.ok (received rx x.readLen)) rest s) t) : exec i s = exec i t := by
  refine exec_eq_exec_of_move ?_ h.target_ne_idle
  rw [accept_of_not_idle (hq ▸ h.ne_idle), h.moveOf_eq hq hb ha]

/-- With an Err answer the move of a waiting state raises it (R159). -/
theorem moveOf_of_err {i : Instr} {s : State} {x : Exchange} {e : TErr} {rest : List Answer} (hp : s.seq ∈ pathOf i)
    (hw : s.seq.waiting = true) (hb : s.bus = some x) (ha : s.answers = .err e :: rest) :
    moveOf i s = .next (raiseOf i (.transportError e) (settle x (.err e) rest s)) := by
  obtain ⟨t, ht⟩ := moveOf_answers (i := i) ⟨hp, fun _ => by rw [hb]; rfl, fun hd => by rw [hd] at hw; cases hw⟩
  rw [ht]
  cases moved_of_moveOf ht with
  | transportFails y e' rest' _ _ hb' ha' =>
    rw [hb] at hb'
    rw [ha] at ha'
    cases hb'
    cases ha'
    rfl
  | transportAnswers y rx rest' _ q _ _ _ ha' => rw [ha] at ha'; cases ha'
  | stays h =>
    rcases h with hi | ⟨-, -, ha'⟩
    · rw [hi] at hw; cases hw
    · rw [ha] at ha'; cases ha'
  | _ => simp_all [Seq.waiting]

/-- With an Err answer a command that waits ends with TransportError and the error value (R159). -/
theorem exec_of_err {i : Instr} {s : State} {x : Exchange} {e : TErr} {rest : List Answer} (hp : s.seq ∈ pathOf i)
    (hw : s.seq.waiting = true) (hb : s.bus = some x) (ha : s.answers = .err e :: rest) :
    exec i s = .next (deliver (failed .transportError (some e))
      (raiseOf i (.transportError e) (settle x (.err e) rest s))) := by
  have hm : moveOf i (accept s) = .next (raiseOf i (.transportError e) (settle x (.err e) rest s)) := by
    rw [accept_of_not_idle (fun hi => by rw [hi] at hw; cases hw), moveOf_of_err hp hw hb ha]
  rw [exec_eq_exec_of_move hm (by simp), exec_of_done (raiseOf_seq _ _ _) (raiseOf_pending _ _ _),
    if_neg (errorResponse_status_ne _)]
  rfl

end Sys2Proof.Machine
end

section
/-! SUPPORT. The data commands from IDLE, path by path (R153 to R156): the refusals of CHECK, then one lemma for each thing a
waiting state can find. -/

namespace Sys2Proof.Machine

/-! ### CHECK -/

/-- A data command without a handle is refused by the gate (R205). -/
theorem exec_of_unbound {i : Instr} {s : State} (hd : dataAddress i ≠ none) (hs : s.seq = .idle) (hb : s.bound = false) :
    exec i s = .next (s.endWith (failed .illegalCommand none)) := by
  refine exec_eq_of_raises (k := .illegalCommand) hs ?_
  cases i <;> simp only [dataAddress, ne_eq, not_true_eq_false] at hd
  case writeByte a d => simp [moveOf, moveWriteByte, hs, checkWriteByte, needHandle, hb]
  case readByte a => simp [moveOf, moveReadByte, hs, checkReadByte, needHandle, hb]
  case writeArray a n p => simp [moveOf, moveWriteArray, hs, checkWriteArray, needHandle, hb]
  case readArray a n => simp [moveOf, moveReadArray, hs, checkReadArray, needHandle, hb]

/-- From IDLE a read whose CHECK raises an error ends with it, and RXBUF holds anything (R160). -/
theorem exec_eq_of_raisesRead {i : Instr} {k : ErrKind} {s : State} (hs : s.seq = .idle)
    (h : moveOf i (accept s) = .next (raiseRead k (accept s))) : ∃ (rx : Vector Byte 127) (c : Nat),
      exec i s = .next (({ s with rxBuf := rx, freeCtr := c } : State).endWith (errorResponse k)) := by
  refine ⟨freeBytes s.freeCtr, s.freeCtr + 127, ?_⟩
  rw [exec_eq_exec_of_move h (by simp), exec_of_done rfl (raiseRead_pending k (accept s)),
    if_neg (errorResponse_status_ne k), accept_of_idle hs]
  congr 1
  apply State.ext
  case seq => exact hs.symm
  all_goals rfl

/-- A data command whose checks pass goes on from where it waits for its pre-write (R151). -/
theorem exec_of_checksPass {i : Instr} {a : Word} {s : State} (hs : s.seq = .idle) (hb : s.bound = true)
    (hc : checksPass i) (hd : dataAddress i = some a) :
    exec i s = exec i (s.waitingFor .presel (.write (pageSelect a) Config.preselFill)) := by
  refine exec_eq_exec_of_move ?_ (by simp [State.waitingFor])
  rw [moveOf_of_checksPass (by simp [hs]) (by simpa using hb) hc hd, accept_of_idle hs]
  rfl

/-! ### The buffers, as one list each -/

theorem exists_loadTx (off : Byte) {l : List Byte} (s : State) (h : l.length ≤ 16) : ∃ tx : Vector Byte 17,
    tx.toList = off :: l ++ s.txBuf.toList.drop (l.length + 1) ∧ loadTx off l s = { s with txBuf := tx } :=
  ⟨_, loadTx_txBuf_toList off l s h, by simp only [loadTx]⟩

theorem exists_loadRx {l : List Byte} (s : State) (h : l.length ≤ 127) : ∃ rx : Vector Byte 127,
    rx.toList = l ++ s.rxBuf.toList.drop l.length ∧ loadRx l s = { s with rxBuf := rx } :=
  ⟨_, loadRx_rxBuf_toList l s h, by simp only [loadRx]⟩

/-! ### A waiting state -/

theorem State.exchanged_exchanged (xs ys : List Record) (l l' : List Answer) (s : State) :
    (s.exchanged xs l).exchanged ys l' = s.exchanged (xs ++ ys) l' := by
  simp only [State.exchanged, List.append_assoc]

section
variable {i : Instr} {q : Seq} {x : Exchange} {u : State}

theorem exec_waitingFor_silent (hp : q ∈ pathOf i) (hw : q.waiting = true) (ha : u.answers = []) :
    exec i (u.waitingFor q x) = .next (u.waitingFor q x) :=
  exec_of_silent (s := u.waitingFor q x) hp hw rfl ha

/-- A write ends with the transport's error and changes nothing more (R159). -/
theorem exec_waitingFor_err {e : TErr} {rest : List Answer} (hu : u.seq = .idle) (hi : readsArray i = false)
    (hp : q ∈ pathOf i) (hw : q.waiting = true) (ha : u.answers = .err e :: rest) :
    exec i (u.waitingFor q x) = .next ((u.exchanged [⟨x, .err e⟩] rest).endWith (failed .transportError (some e))) := by
  rw [exec_of_err (s := u.waitingFor q x) hp hw rfl ha, raiseOf, hi]
  congr 1
  apply State.ext
  case seq => exact hu.symm
  all_goals rfl

/-- A read ends with the transport's error, and RXBUF holds anything (R159, R160). -/
theorem exec_waitingFor_err_read {e : TErr} {rest : List Answer} (hu : u.seq = .idle) (hi : readsArray i = true)
    (hp : q ∈ pathOf i) (hw : q.waiting = true) (ha : u.answers = .err e :: rest) : ∃ (rx : Vector Byte 127) (c : Nat),
      exec i (u.waitingFor q x) = .next ((({ u with rxBuf := rx, freeCtr := c } : State).exchanged [⟨x, .err e⟩] rest).endWith
        (failed .transportError (some e))) := by
  refine ⟨freeBytes u.freeCtr, u.freeCtr + 127, ?_⟩
  rw [exec_of_err (s := u.waitingFor q x) hp hw rfl ha, raiseOf, hi]
  congr 1
  apply State.ext
  case seq => exact hu.symm
  all_goals rfl

/-- With an Ok answer a command that waits goes on from what GoesOn says. -/
theorem exec_waitingFor_ok {rx : Vector Byte 127} {rest : List Answer} {v : State} (ha : u.answers = .ok rx :: rest)
    (hg : GoesOn i q rx (settle x (.ok (received rx x.readLen)) rest (u.waitingFor q x)) v) :
    exec i (u.waitingFor q x) = exec i v :=
  hg.exec_eq (s := u.waitingFor q x) rfl rfl ha

/-- After its last Ok answer a write ends with OK and writes LASTW (R158). -/
theorem exec_waitingFor_written {a : Word} {rx : Vector Byte 127} {rest : List Answer} (hu : u.seq = .idle)
    (hi : commitOf i = recordWrite a) (hx : x.readLen = 0) (hg : ∀ w, GoesOn i .xfer rx w (finishOk 0#32 [] w))
    (ha : u.answers = .ok rx :: rest) :
    exec i (u.waitingFor .xfer x) = .next ((({ u with lastW := a.extractLsb' 0 9 } : State).exchanged [⟨x, .ok []⟩]
      rest).endWith (succeeded 0#32 [])) := by
  rw [exec_waitingFor_ok ha (hg _), exec_of_done rfl (finishOk_pending _ _ _), hi, hx, received_zero]
  congr 1
  apply State.ext
  case seq => exact hu.symm
  all_goals rfl

/-- After its last Ok answer a read ends with OK and writes RXBUF and LASTR (R158). -/
theorem exec_waitingFor_read {a v : Word} {data : List Byte} {rx : Vector Byte 127} {rest : List Answer} (hu : u.seq = .idle)
    (hi : commitOf i = recordRead a) (hx : received rx x.readLen = data) (hlen : data.length ≤ 127)
    (hg : ∀ w, GoesOn i .xfer rx w (finishOk v data (loadRx data w))) (ha : u.answers = .ok rx :: rest) :
    ∃ buf : Vector Byte 127, buf.toList = data ++ u.rxBuf.toList.drop data.length ∧
      exec i (u.waitingFor .xfer x) = .next ((({ u with rxBuf := buf, lastR := a.extractLsb' 0 9 } : State).exchanged
        [⟨x, .ok data⟩] rest).endWith (succeeded v data)) := by
  obtain ⟨buf, hbuf, hload⟩ := exists_loadRx (settle x (.ok data) rest (u.waitingFor .xfer x)) hlen
  refine ⟨buf, hbuf, ?_⟩
  rw [exec_waitingFor_ok ha (hg _), hx, hload, exec_of_done rfl (finishOk_pending _ _ _), hi]
  congr 1
  apply State.ext
  case seq => exact hu.symm
  all_goals rfl

/-! The same where other exchanges have ended before. -/

variable {xs : List Record}

theorem exec_exchanged_err {e : TErr} {rest : List Answer} (hu : u.seq = .idle) (hi : readsArray i = false)
    (hp : q ∈ pathOf i) (hw : q.waiting = true) :
    exec i ((u.exchanged xs (.err e :: rest)).waitingFor q x) =
      .next ((u.exchanged (xs ++ [⟨x, .err e⟩]) rest).endWith (failed .transportError (some e))) := by
  rw [← State.exchanged_exchanged]
  exact exec_waitingFor_err hu hi hp hw rfl

theorem exec_exchanged_err_read {e : TErr} {rest : List Answer} (hu : u.seq = .idle) (hi : readsArray i = true)
    (hp : q ∈ pathOf i) (hw : q.waiting = true) : ∃ (rx : Vector Byte 127) (c : Nat),
      exec i ((u.exchanged xs (.err e :: rest)).waitingFor q x) =
        .next ((({ u with rxBuf := rx, freeCtr := c } : State).exchanged (xs ++ [⟨x, .err e⟩]) rest).endWith
          (failed .transportError (some e))) := by
  simp only [← State.exchanged_exchanged xs _ (.err e :: rest)]
  exact exec_waitingFor_err_read hu hi hp hw rfl

theorem exec_exchanged_written {a : Word} {rx : Vector Byte 127} {rest : List Answer} (hu : u.seq = .idle)
    (hi : commitOf i = recordWrite a) (hx : x.readLen = 0) (hg : ∀ w, GoesOn i .xfer rx w (finishOk 0#32 [] w)) :
    exec i ((u.exchanged xs (.ok rx :: rest)).waitingFor .xfer x) =
      .next ((({ u with lastW := a.extractLsb' 0 9 } : State).exchanged (xs ++ [⟨x, .ok []⟩]) rest).endWith
        (succeeded 0#32 [])) := by
  rw [← State.exchanged_exchanged xs _ (.ok rx :: rest)]
  exact exec_waitingFor_written hu hi hx hg rfl

theorem exec_exchanged_read {a v : Word} {data : List Byte} {rx : Vector Byte 127} {rest : List Answer} (hu : u.seq = .idle)
    (hi : commitOf i = recordRead a) (hx : received rx x.readLen = data) (hlen : data.length ≤ 127)
    (hg : ∀ w, GoesOn i .xfer rx w (finishOk v data (loadRx data w))) :
    ∃ buf : Vector Byte 127, buf.toList = data ++ u.rxBuf.toList.drop data.length ∧
      exec i ((u.exchanged xs (.ok rx :: rest)).waitingFor .xfer x) =
        .next ((({ u with rxBuf := buf, lastR := a.extractLsb' 0 9 } : State).exchanged (xs ++ [⟨x, .ok data⟩])
          rest).endWith (succeeded v data)) := by
  simp only [← State.exchanged_exchanged xs _ (.ok rx :: rest)]
  exact exec_waitingFor_read (u := u.exchanged xs (.ok rx :: rest)) hu hi hx hlen hg rfl

end

/-! ### WRITE_BYTE (R153) -/

theorem exec_writeByte_outOfRange {a : Word} (d : Byte) {s : State} (hs : s.seq = .idle) (hb : s.bound = true)
    (ha : 512 ≤ a.toNat) : exec (.writeByte a d) s = .next (s.endWith (failed .addressOutOfRange none)) :=
  exec_eq_of_raises (k := .addressOutOfRange) hs (by
    simp [moveOf, moveWriteByte, hs, checkWriteByte, needHandle, hb, dataCheck_bounds, Nat.not_lt.2 ha])

/-- After the pre-write TXBUF is loaded and the data write issued. -/
theorem exec_writeByte_preselected {a : Word} {d : Byte} {s : State} {r0 : Vector Byte 127} {rest : List Answer}
    (ha : s.answers = .ok r0 :: rest) : ∃ tx : Vector Byte 17,
      tx.toList = [inPageOffset a, d] ++ s.txBuf.toList.drop 2 ∧
      exec (.writeByte a d) (s.waitingFor .presel (.write (pageSelect a) Config.preselFill)) =
        exec (.writeByte a d) ((({ s with txBuf := tx } : State).exchanged [presel a (.ok [])] rest).waitingFor .xfer
          (.write s.devAddr [inPageOffset a, d])) := by
  obtain ⟨tx, htx, hload⟩ := exists_loadTx (inPageOffset a) (l := [d])
    (settle (.write (pageSelect a) Config.preselFill) (.ok []) rest
      (s.waitingFor .presel (.write (pageSelect a) Config.preselFill))) (by simp)
  refine ⟨tx, htx, ?_⟩
  rw [exec_waitingFor_ok ha (.writeBytePresel a d r0 _), Exchange.readLen, received_zero, sendWriteByte_eq, hload]
  rfl

/-- Settles O25: CHECK, the pre-write and the data write, each with what it can find. -/
theorem writeByteFollowsItsRule : Obligations.WriteByteFollowsItsRule := by
  intro a d s hs
  refine ⟨exec_of_unbound (by simp [dataAddress]) hs, exec_writeByte_outOfRange d hs, fun hb ha => ?_⟩
  have hpre := exec_of_checksPass (i := .writeByte a d) hs hb ha rfl
  refine ⟨fun hans => hpre.trans (exec_waitingFor_silent (by simp [pathOf]) rfl hans),
    fun e rest hans => hpre.trans (exec_waitingFor_err hs rfl (by simp [pathOf]) rfl hans), fun r0 rest hans => ?_⟩
  obtain ⟨tx, htx, hsent⟩ := exec_writeByte_preselected (d := d) hans
  rw [← hpre] at hsent
  refine ⟨tx, htx, ?_, ?_, ?_⟩
  · rintro rfl
    exact hsent.trans (exec_waitingFor_silent (by simp [pathOf]) rfl rfl)
  · rintro e rest' rfl
    rw [hsent]
    exact exec_exchanged_err hs rfl (by simp [pathOf]) rfl
  · rintro r1 rest' rfl
    rw [hsent]
    exact exec_exchanged_written hs rfl rfl (.writeByteXfer a d r1)

/-! ### READ_BYTE (R154) -/

theorem exec_readByte_outOfRange {a : Word} {s : State} (hs : s.seq = .idle) (hb : s.bound = true) (ha : 512 ≤ a.toNat) :
    ∃ (rx : Vector Byte 127) (k : Nat), exec (.readByte a) s =
      .next (({ s with rxBuf := rx, freeCtr := k } : State).endWith (failed .addressOutOfRange none)) :=
  exec_eq_of_raisesRead (k := .addressOutOfRange) hs (by
    simp [moveOf, moveReadByte, hs, checkReadByte, needHandle, hb, dataCheck_bounds, Nat.not_lt.2 ha])

/-- After the pre-write the read is issued. -/
theorem exec_readByte_preselected {a : Word} {s : State} {r0 : Vector Byte 127} {rest : List Answer}
    (ha : s.answers = .ok r0 :: rest) :
    exec (.readByte a) (s.waitingFor .presel (.write (pageSelect a) Config.preselFill)) =
      exec (.readByte a) ((s.exchanged [presel a (.ok [])] rest).waitingFor .xfer
        (.writeRead s.devAddr [inPageOffset a] 1)) := by
  rw [exec_waitingFor_ok ha (.readBytePresel a r0 _), Exchange.readLen, received_zero]
  rfl

/-- Settles O26: CHECK, the pre-write and the read, each with what it can find. -/
theorem readByteFollowsItsRule : Obligations.ReadByteFollowsItsRule := by
  intro a s hs
  refine ⟨exec_of_unbound (by simp [dataAddress]) hs, exec_readByte_outOfRange hs, fun hb ha => ?_⟩
  have hpre := exec_of_checksPass (i := .readByte a) hs hb ha rfl
  refine ⟨?_, ?_, ?_, ?_, ?_⟩
  · exact fun hans => hpre.trans (exec_waitingFor_silent (by simp [pathOf]) rfl hans)
  · intro e rest hans
    rw [hpre]
    exact exec_waitingFor_err_read hs rfl (by simp [pathOf]) rfl hans
  · intro r0 hans
    rw [hpre, exec_readByte_preselected hans, exec_waitingFor_silent (by simp [pathOf]) rfl rfl]
  · intro r0 e rest hans
    rw [hpre, exec_readByte_preselected hans]
    exact exec_exchanged_err_read hs rfl (by simp [pathOf]) rfl
  · intro r0 r1 rest hans
    rw [hpre, exec_readByte_preselected hans]
    exact exec_exchanged_read hs rfl (received_one r1) (by simp) (.readByteXfer a r1)

/-! ### READ_ARRAY (R155) -/

theorem exec_readArray_outOfRange {a : Word} (n : Word) {s : State} (hs : s.seq = .idle) (hb : s.bound = true)
    (ha : 512 ≤ a.toNat) : ∃ (rx : Vector Byte 127) (k : Nat), exec (.readArray a n) s =
      .next (({ s with rxBuf := rx, freeCtr := k } : State).endWith (failed .addressOutOfRange none)) :=
  exec_eq_of_raisesRead (k := .addressOutOfRange) hs (by
    simp [moveOf, moveReadArray, hs, checkReadArray, needHandle, hb, dataCheck_bounds, Nat.not_lt.2 ha])

theorem exec_readArray_overflow {a n : Word} {s : State} (hs : s.seq = .idle) (hb : s.bound = true) (ha : a.toNat < 512)
    (hw : ¬ windowPasses a n) : ∃ (rx : Vector Byte 127) (k : Nat), exec (.readArray a n) s =
      .next (({ s with rxBuf := rx, freeCtr := k } : State).endWith (failed .pageWriteWindowOverflow none)) :=
  exec_eq_of_raisesRead (k := .pageWriteWindowOverflow) hs (by
    rw [windowPasses_iff] at hw
    simp [moveOf, moveReadArray, hs, checkReadArray, needHandle, hb, dataCheck_bounds, ha, dataCheck_window _ ha, hw])

/-- After the pre-write the dummy read of one byte is issued. -/
theorem exec_readArray_preselected {a n : Word} {s : State} {r0 : Vector Byte 127} {rest : List Answer}
    (ha : s.answers = .ok r0 :: rest) :
    exec (.readArray a n) (s.waitingFor .presel (.write (pageSelect a) Config.preselFill)) =
      exec (.readArray a n) ((s.exchanged [presel a (.ok [])] rest).waitingFor .dummy
        (.writeRead s.devAddr [inPageOffset a] 1)) := by
  rw [exec_waitingFor_ok ha (.readArrayPresel a n r0 _), Exchange.readLen, received_zero]
  rfl

/-- After the dummy read DUMMY is loaded and the data read issued. -/
theorem exec_readArray_dummyRead {a n : Word} {s : State} {r0 r1 : Vector Byte 127} {rest : List Answer}
    (ha : s.answers = .ok r0 :: .ok r1 :: rest) :
    exec (.readArray a n) (s.waitingFor .presel (.write (pageSelect a) Config.preselFill)) =
      exec (.readArray a n) ((({ s with dummy := r1[0] } : State).exchanged
        [presel a (.ok []), ⟨.writeRead s.devAddr [inPageOffset a] 1, .ok [r1[0]]⟩] rest).waitingFor .xfer
          (.writeRead s.devAddr [inPageOffset a] n.toNat)) := by
  rw [exec_readArray_preselected ha, exec_waitingFor_ok rfl (.readArrayDummy a n r1 _), Exchange.readLen, received_one]
  simp [State.exchanged, State.waitingFor, issue, loadDummy, settle, readExchange]

/-- Settles O27: CHECK, the pre-write, the dummy read and the data read, each with what it can find. -/
theorem readArrayFollowsItsRule : Obligations.ReadArrayFollowsItsRule := by
  intro a n s hs
  refine ⟨exec_of_unbound (by simp [dataAddress]) hs, exec_readArray_outOfRange n hs, exec_readArray_overflow hs,
    fun hb ha hw => ?_⟩
  have hpre := exec_of_checksPass (i := .readArray a n) hs hb ⟨ha, hw⟩ rfl
  have hn : n.toNat ≤ 127 := len_le_of_window ((windowPasses_iff a n).1 hw)
  refine ⟨?_, ?_, ?_, ?_, ?_, ?_, ?_⟩
  · exact fun hans => hpre.trans (exec_waitingFor_silent (by simp [pathOf]) rfl hans)
  · intro e rest hans
    rw [hpre]
    exact exec_waitingFor_err_read hs rfl (by simp [pathOf]) rfl hans
  · intro r0 hans
    rw [hpre, exec_readArray_preselected hans, exec_waitingFor_silent (by simp [pathOf]) rfl rfl]
  · intro r0 e rest hans
    rw [hpre, exec_readArray_preselected hans]
    obtain ⟨rx, k, hx⟩ := exec_exchanged_err_read (i := .readArray a n) (q := .dummy) (u := s) hs rfl (by simp [pathOf]) rfl
    exact ⟨rx, s.dummy, k, hx⟩
  · intro r0 r1 hans
    rw [hpre, exec_readArray_dummyRead hans, exec_waitingFor_silent (by simp [pathOf]) rfl rfl]
  · intro r0 r1 e rest hans
    rw [hpre, exec_readArray_dummyRead hans]
    exact exec_exchanged_err_read hs rfl (by simp [pathOf]) rfl
  · intro r0 r1 r2 rest hans
    rw [hpre, exec_readArray_dummyRead hans]
    have hlen := length_received r2 hn
    obtain ⟨rx, hrx, hx⟩ := exec_exchanged_read (u := { s with dummy := r1[0] })
      (x := .writeRead s.devAddr [inPageOffset a] n.toNat) hs rfl rfl (hlen.trans_le hn) (.readArrayXfer a n r2)
    rw [Exchange.readLen, hlen] at hrx
    exact ⟨rx, hrx, hx⟩

/-! ### WRITE_ARRAY (R156) -/

section
variable {a n : Word} {p : Vector Byte 16} {s : State}

theorem exec_writeArray_outOfRange (hs : s.seq = .idle) (hb : s.bound = true) (hn : n.toNat ≤ 16) (ha : 512 ≤ a.toNat) :
    exec (.writeArray a n p) s = .next (s.endWith (failed .addressOutOfRange none)) :=
  exec_eq_of_raises (k := .addressOutOfRange) hs (by
    simp [moveOf, moveWriteArray, hs, checkWriteArray, needHandle, hb, Nat.not_lt.2 hn, dataCheck_bounds, Nat.not_lt.2 ha])

theorem exec_writeArray_overflow (hs : s.seq = .idle) (hb : s.bound = true) (hn : n.toNat ≤ 16) (ha : a.toNat < 512)
    (hw : ¬ windowPasses a n) :
    exec (.writeArray a n p) s = .next (s.endWith (failed .pageWriteWindowOverflow none)) :=
  exec_eq_of_raises (k := .pageWriteWindowOverflow) hs (by
    rw [windowPasses_iff] at hw
    simp [moveOf, moveWriteArray, hs, checkWriteArray, needHandle, hb, Nat.not_lt.2 hn, dataCheck_bounds, ha,
      dataCheck_window _ ha, hw])

theorem legalMultiple_iff (n : Word) : legalMultiple n = true ↔ n.toNat ∈ [2, 4, 8, 16] := by
  simp [legalMultiple, or_assoc]

/-- From MULT a command goes on with what MULT decides. -/
theorem exec_of_mult (hq : s.seq = .mult) : exec (.writeArray a n p) s = exec (.writeArray a n p) (multWriteArray a n p s) := by
  refine exec_eq_exec_of_move ?_ ?_
  · rw [accept_of_not_idle (by simp [hq])]
    simp only [moveOf, moveWriteArray, hq]
  · unfold multWriteArray
    split <;> simp [sendWriteArray]

/-- After the pre-write a length that is no legal multiple is refused. -/
theorem exec_writeArray_badMultiple {r0 : Vector Byte 127} {rest : List Answer} (hs : s.seq = .idle)
    (ha : s.answers = .ok r0 :: rest) (hn : n.toNat ∉ [2, 4, 8, 16]) :
    exec (.writeArray a n p) (s.waitingFor .presel (.write (pageSelect a) Config.preselFill)) =
      .next ((s.exchanged [presel a (.ok [])] rest).endWith (failed .invalidPayloadMultiple none)) := by
  rw [← legalMultiple_iff] at hn
  rw [exec_waitingFor_ok ha (.writeArrayPresel a n p r0 _), exec_of_mult rfl, multWriteArray, if_neg hn,
    exec_of_done rfl (raise_pending _ _), if_neg (errorResponse_status_ne _), Exchange.readLen, received_zero]
  congr 1
  apply State.ext
  case seq => exact hs.symm
  all_goals rfl

/-- After the pre-write, with a legal length, TXBUF is loaded and the data write issued. -/
theorem exec_writeArray_preselected {r0 : Vector Byte 127} {rest : List Answer} (ha : s.answers = .ok r0 :: rest)
    (hn : n.toNat ∈ [2, 4, 8, 16]) : ∃ tx : Vector Byte 17,
      tx.toList = inPageOffset a :: p.toList.take n.toNat ++ s.txBuf.toList.drop (n.toNat + 1) ∧
      exec (.writeArray a n p) (s.waitingFor .presel (.write (pageSelect a) Config.preselFill)) =
        exec (.writeArray a n p) ((({ s with txBuf := tx } : State).exchanged [presel a (.ok [])] rest).waitingFor .xfer
          (.write s.devAddr (inPageOffset a :: p.toList.take n.toNat))) := by
  have hm := (legalMultiple_iff n).2 hn
  have hle := toNat_le_of_legalMultiple hm
  have hlen : (p.toList.take n.toNat).length = n.toNat := by simp [hle]
  obtain ⟨tx, htx, hload⟩ := exists_loadTx (inPageOffset a) (l := p.toList.take n.toNat)
    (toMult (settle (.write (pageSelect a) Config.preselFill) (.ok []) rest
      (s.waitingFor .presel (.write (pageSelect a) Config.preselFill)))) (by omega)
  rw [hlen] at htx
  refine ⟨tx, htx, ?_⟩
  rw [exec_waitingFor_ok ha (.writeArrayPresel a n p r0 _), exec_of_mult rfl, multWriteArray, if_pos hm, Exchange.readLen,
    received_zero, sendWriteArray_eq a hle, hload]
  rfl

end

/-- Settles O28: CHECK, the pre-write, the length and the data write, each with what it can find. -/
theorem writeArrayFollowsItsRule : Obligations.WriteArrayFollowsItsRule := by
  intro a n p s hs
  refine ⟨exec_of_unbound (by simp [dataAddress]) hs, exec_writeArray_tooLarge a p hs, exec_writeArray_outOfRange hs,
    exec_writeArray_overflow hs, fun hb hle ha hw => ?_⟩
  have hpre := exec_of_checksPass (i := .writeArray a n p) hs hb ⟨hle, ha, hw⟩ rfl
  refine ⟨?_, ?_, ?_, ?_⟩
  · exact fun hans => hpre.trans (exec_waitingFor_silent (by simp [pathOf]) rfl hans)
  · exact fun e rest hans => hpre.trans (exec_waitingFor_err hs rfl (by simp [pathOf]) rfl hans)
  · exact fun r0 rest hans hn => hpre.trans (exec_writeArray_badMultiple hs hans hn)
  · intro r0 rest hans hn
    obtain ⟨tx, htx, hsent⟩ := exec_writeArray_preselected (a := a) (p := p) hans hn
    rw [← hpre] at hsent
    refine ⟨tx, htx, ?_, ?_, ?_⟩
    · rintro rfl
      exact hsent.trans (exec_waitingFor_silent (by simp [pathOf]) rfl rfl)
    · rintro e rest' rfl
      rw [hsent]
      exact exec_exchanged_err hs rfl (by simp [pathOf]) rfl
    · rintro r1 rest' rfl
      rw [hsent]
      exact exec_exchanged_written hs rfl rfl (.writeArrayXfer a n p r1)

end Sys2Proof.Machine
end

section
/-! SUPPORT. Every data command selects its page first (R151), and every command runs from IDLE (R157). -/

namespace Sys2Proof.Machine

/-- The exchanges of a data command: the pre-write of its page, then exchanges with DEVADDR (R97). -/
theorem exchangesOf_eq_cons {i : Instr} {a : Word} (hd : dataAddress i = some a) (devAddr : BusAddr) :
    ∃ l, exchangesOf devAddr i = .write (pageSelect a) Config.preselFill :: l ∧ ∀ x ∈ l, x.busAddr = devAddr := by
  cases i <;> simp only [dataAddress, reduceCtorEq, Option.some.injEq] at hd <;> subst hd <;>
    exact ⟨_, rfl, by simp [Exchange.busAddr]⟩

/-- Since s an exchange has been issued: it has ended, or it is the pre-write outstanding. -/
def HasIssued (s t : State) : Prop :=
  s.trace.length < t.trace.length ∨ (t.trace = s.trace ∧ t.seq = .presel ∧ t.bus.isSome = true)

theorem HasIssued.issued_ne_nil {s t : State} (h : HasIssued s t) : issued s t ≠ [] := by
  intro hi
  obtain ⟨hdrop, hbus⟩ := List.append_eq_nil_iff.1 hi
  rcases h with hlt | ⟨-, -, hb⟩
  · have hle := List.drop_eq_nil_iff.1 (List.map_eq_nil_iff.1 hdrop)
    omega
  · rw [Option.toList_eq_nil_iff.1 hbus] at hb
    cases hb

/-- What has been issued stays issued. -/
theorem Moved.hasIssued {i : Instr} {s t u : State} (h : HasIssued s t) (hm : Moved i t u) : HasIssued s u := by
  rcases h with hlt | ⟨htr, hq, hb⟩
  · exact .inl (hlt.trans_le hm.framed.trace.length_le)
  · cases hm with
    | stays _ => exact .inr ⟨htr, hq, hb⟩
    | transportFails x e rest _ _ _ _ =>
      obtain ⟨ktr, -, -⟩ := raiseOf_noTraffic i (.transportError e) (settle x (.err e) rest t)
      exact .inl (by rw [ktr, settle_trace, htr]; simp)
    | transportAnswers x rx rest _ q _ _ _ _ hg => exact .inl (by simpa [htr] using hg.framed.trace.length_le)
    | _ => simp_all

/-- Settles O29: the exchanges are a beginning of the command's row, and CHECK issues its first where the checks pass. -/
theorem dataCommandsSelectThePageFirst : Obligations.DataCommandsSelectThePageFirst := by
  intro i a s t hd hs hb h
  refine ⟨?_, fun hbound hc => ?_⟩
  · have hpre := (exec_underway_or_ended hs hb h).elim (·.issued_prefix) (·.issued_prefix)
    obtain ⟨l, hl, hdev⟩ := exchangesOf_eq_cons hd s.devAddr
    rw [hl] at hpre
    rcases List.prefix_cons_iff.1 hpre with hnil | ⟨rest, hx, hrest⟩
    · exact .inl hnil
    · have ha := checksPass_lt hd (checksPass_of_issued hs hb h (by simp [hx]))
      exact .inr ⟨rest, by rw [hx, pageSelect_eq_ite ha], fun x hmem => hdev x (hrest.subset hmem)⟩
  · rw [exec_of_checksPass hs hbound hc hd] at h
    have hstart : HasIssued s (s.waitingFor .presel (.write (pageSelect a) Config.preselFill)) := .inr ⟨rfl, rfl, rfl⟩
    rw [exec_eq_runCommand, runCommand, accept_of_not_idle (by simp [State.waitingFor])] at h
    exact (runMoves_keeps (fun _ _ hu hv => (moved_of_moveOf hv).hasIssued hu) 5 hstart h).issued_ne_nil

/-- Settles O33: in IDLE every command is in step, and in step no move stops. -/
theorem everyCommandRunsFromIdle : Obligations.EveryCommandRunsFromIdle := by
  intro i s hs
  obtain ⟨t, ht, -⟩ := (inStep_of_idle i hs).exec
  exact ⟨t, ht⟩

end Sys2Proof.Machine
end

section
/-! SUPPORT. A failed exchange is the last of its command, and leaves the bookkeeping registers (R158, R159). -/

namespace Sys2Proof.Machine

/-! ### What stays until DONE -/

/-- From s to t no response was delivered and no bookkeeping register written. -/
structure Kept (s t : State) : Prop where
  responses : t.responses = s.responses
  lastW : t.lastW = s.lastW
  lastR : t.lastR = s.lastR

theorem Kept.trans {s t u : State} (h : Kept s t) (k : Kept t u) : Kept s u :=
  ⟨k.responses.trans h.responses, k.lastW.trans h.lastW, k.lastR.trans h.lastR⟩

theorem raiseOf_kept (i : Instr) (k : ErrKind) (s : State) : Kept s (raiseOf i k s) := by
  unfold raiseOf; split <;> exact ⟨rfl, rfl, rfl⟩

theorem raiseOf_handle (i : Instr) (k : ErrKind) (s : State) :
    (raiseOf i k s).bound = s.bound ∧ (raiseOf i k s).devAddr = s.devAddr := by
  unfold raiseOf; split <;> exact ⟨rfl, rfl⟩

theorem settle_kept (x : Exchange) (e : Ending) (rest : List Answer) (s : State) : Kept s (settle x e rest s) :=
  ⟨rfl, rfl, rfl⟩

theorem sendWriteArray_kept (a n : Word) (p : Vector Byte 16) (s : State) : Kept s (sendWriteArray a n p s) := by
  constructor <;> simp [sendWriteArray]

theorem GoesOn.kept {i : Instr} {q : Seq} {rx : Vector Byte 127} {u v : State} (h : GoesOn i q rx u v) : Kept u v := by
  cases h <;> constructor <;> simp [sendWriteByte]

theorem GoesOn.trace {i : Instr} {q : Seq} {rx : Vector Byte 127} {u v : State} (h : GoesOn i q rx u v) :
    v.trace = u.trace := by
  cases h <;> simp [sendWriteByte]

/-- A move writes a bookkeeping register or a response only in DONE. -/
theorem Moved.kept {i : Instr} {s t : State} (hq : s.seq ≠ .done) (h : Moved i s t) : Kept s t := by
  cases h with
  | failsCheck k _ _ _ _ => exact raiseOf_kept i k s
  | transportFails x e rest _ _ _ _ => exact (settle_kept x _ rest s).trans (raiseOf_kept i _ _)
  | transportAnswers x rx rest _ q _ _ _ _ hg => exact (settle_kept x _ rest s).trans hg.kept
  | sends a n p _ _ _ => exact sendWriteArray_kept a n p s
  | delivers r hd _ => exact absurd hd hq
  | _ => exact ⟨rfl, rfl, rfl⟩

/-! ### A command that fails, and one that has not yet -/

/-- Every exchange of a stretch of the trace was answered Ok. -/
def AllOk (l : List Record) : Prop := ∀ y ∈ l, ∃ r, y.ending = .ok r

/-- A command has come from s to t, and none of its exchanges has failed. -/
structure Unfailed (s t : State) : Prop where
  trace : ∃ l, t.trace = s.trace ++ l ∧ AllOk l
  kept : t.seq ≠ .idle → Kept s t

/-- A command has come from s to t, and its last exchange x has failed with e. -/
structure FailedAt (x : Exchange) (e : TErr) (s t : State) : Prop where
  trace : ∃ l, t.trace = s.trace ++ l ++ [⟨x, .err e⟩] ∧ AllOk l
  bus : t.bus = none
  lastW : t.lastW = s.lastW
  lastR : t.lastR = s.lastR
  ends : (t.seq = .done ∧ t.pending = some (failed .transportError (some e)) ∧ t.responses = s.responses) ∨
    (t.seq = .idle ∧ t.responses = s.responses ++ [failed .transportError (some e)])

/-- A move that ends no exchange leaves a command as unfailed as it was. -/
theorem Unfailed.of_trace {s t u : State} (h : Unfailed s t) (htr : u.trace = t.trace) (hk : u.seq ≠ .idle → Kept s u) :
    Unfailed s u :=
  ⟨by rw [htr]; exact h.trace, hk⟩

/-- A move of a command that has not failed: an Err answer makes it fail, nothing else does. -/
theorem Unfailed.moved {i : Instr} {s t u : State} (ht : Unfailed s t) (h : Moved i t u) :
    Unfailed s u ∨ ∃ x e, FailedAt x e s u := by
  have hk : t.seq ≠ .idle → t.seq ≠ .done → Kept s u := fun hi hd => (ht.kept hi).trans (h.kept hd)
  obtain ⟨l, hl, hok⟩ := ht.trace
  cases h with
  | stays _ => exact .inl ht
  | refusedCheck hq _ => exact .inl (ht.of_trace rfl fun _ => hk (by simp [hq]) (by simp [hq]))
  | failsCheck k hq _ _ _ =>
    obtain ⟨ktr, -, -⟩ := raiseOf_noTraffic i k t
    exact .inl (ht.of_trace ktr fun _ => hk (by simp [hq]) (by simp [hq]))
  | answersAtOnce v hq _ _ => exact .inl (ht.of_trace rfl fun _ => hk (by simp [hq]) (by simp [hq]))
  | preselects a hq _ _ _ => exact .inl (ht.of_trace rfl fun _ => hk (by simp [hq]) (by simp [hq]))
  | failsMult a n p hq _ _ => exact .inl (ht.of_trace rfl fun _ => hk (by simp [hq]) (by simp [hq]))
  | sends a n p hq _ _ =>
    exact .inl (ht.of_trace (by simp [sendWriteArray]) fun _ => hk (by simp [hq]) (by simp [hq]))
  | transportFails x e rest hw _ hb _ =>
    obtain ⟨hr, hW, hR⟩ := hk (fun hi => by rw [hi] at hw; cases hw) (fun hd => by rw [hd] at hw; cases hw)
    obtain ⟨ktr, kbus, -⟩ := raiseOf_noTraffic i (.transportError e) (settle x (.err e) rest t)
    exact .inr ⟨x, e, ⟨l, by rw [ktr, settle_trace, hl], hok⟩, kbus, hW, hR,
      .inl ⟨raiseOf_seq _ _ _, raiseOf_pending _ _ _, hr⟩⟩
  | transportAnswers x rx rest _ q _ hw _ _ hg =>
    refine .inl ⟨⟨l ++ [⟨x, .ok (received rx x.readLen)⟩], by rw [hg.trace, settle_trace, hl, List.append_assoc], ?_⟩,
      fun _ => hk (fun hi => by rw [hi] at hw; cases hw) (fun hd => by rw [hd] at hw; cases hw)⟩
    intro y hy
    rcases List.mem_append.1 hy with hy | hy
    · exact hok y hy
    · rw [List.mem_singleton.1 hy]; exact ⟨_, rfl⟩
  | delivers r _ _ =>
    refine .inl (ht.of_trace ?_ (fun hi => absurd rfl hi))
    obtain ⟨ktr, -, -⟩ := commitOf_noTraffic i t
    split
    · exact ktr
    · rfl

/-- After a failed exchange a move only delivers the response. -/
theorem FailedAt.moved {i : Instr} {x : Exchange} {e : TErr} {s t u : State} (ht : FailedAt x e s t) (h : Moved i t u) :
    FailedAt x e s u := by
  rcases ht.ends with ⟨hq, hp, hr⟩ | ⟨hq, -⟩
  · cases h with
    | delivers r _ hp' =>
      rw [hp] at hp'
      cases hp'
      exact ⟨ht.trace, ht.bus, ht.lastW, ht.lastR, .inr ⟨rfl, by rw [if_neg (by simp [failed]), deliver_responses, hr]⟩⟩
    | stays _ => exact ht
    | _ => simp_all [Seq.waiting]
  · rw [h.eq_of_idle hq]; exact ht

/-- From any state, a command has not failed, or it has failed and ended so. -/
theorem exec_unfailed_or_failedAt {i : Instr} {s t : State} (h : exec i s = .next t) :
    Unfailed s t ∨ ∃ x e, FailedAt x e s t := by
  have hstart : Unfailed s (accept s) := ⟨⟨[], by simp [AllOk]⟩, fun _ => ⟨by simp, by simp, by simp⟩⟩
  rw [exec_eq_runCommand, runCommand] at h
  refine runMoves_keeps (P := fun u => Unfailed s u ∨ ∃ x e, FailedAt x e s u) (fun u v hu hv => ?_) 5 (.inl hstart) h
  rcases hu with hu | ⟨x, e, hu⟩
  · exact hu.moved (moved_of_moveOf hv)
  · exact .inr ⟨x, e, hu.moved (moved_of_moveOf hv)⟩

theorem AllOk.err_not_mem {l : List Record} (h : AllOk l) (x : Exchange) (e : TErr) : ⟨x, .err e⟩ ∉ l := by
  intro hmem
  obtain ⟨r, hr⟩ := h _ hmem
  cases hr

/-- A failed exchange among those of a command is the one it failed at. -/
theorem failedAt_of_mem_settled {i : Instr} {s t : State} {x : Exchange} {e : TErr} (h : exec i s = .next t)
    (hx : ⟨x, .err e⟩ ∈ settled s t) : FailedAt x e s t := by
  rcases exec_unfailed_or_failedAt h with hu | ⟨y, f, hf⟩
  · obtain ⟨l, hl, hok⟩ := hu.trace
    rw [settled, hl, List.drop_left] at hx
    exact absurd hx (hok.err_not_mem x e)
  · obtain ⟨l, hl, hok⟩ := hf.trace
    rw [settled, hl, List.append_assoc, List.drop_left] at hx
    rcases List.mem_append.1 hx with hx | hx
    · exact absurd hx (hok.err_not_mem x e)
    · cases List.mem_singleton.1 hx
      exact hf

/-- A command comes to rest, and one that has failed rests in IDLE with its response delivered. -/
theorem FailedAt.ended {i : Instr} {x : Exchange} {e : TErr} {s t : State} (hf : FailedAt x e s t) (h : exec i s = .next t) :
    t.seq = .idle ∧ t.responses = s.responses ++ [failed .transportError (some e)] := by
  rcases hf.ends with ⟨hq, -, -⟩ | hend
  · rcases exec_rests h with hi | ⟨hw, -, -⟩
    · rw [hq] at hi; cases hi
    · rw [hq] at hw; cases hw
  · exact hend

/-- A consistent state that waits when an Err comes: the command ends with that exchange and the error value (R159). -/
theorem exec_of_err_consistent {s : State} {e : TErr} {rest : List Answer} (h : Consistent s) (hw : s.seq.waiting = true)
    (ha : s.answers = .err e :: rest) : ∃ x, s.bus = some x ∧ exec (decode s.cmd) s = .next
      (deliver (failed .transportError (some e))
        (raiseOf (decode s.cmd) (.transportError e) (settle x (.err e) rest s))) := by
  obtain ⟨x, hx⟩ := Option.isSome_iff_exists.1 (h.busWhileWaiting hw)
  exact ⟨x, hx, exec_of_err h.onPath hw hx ha⟩

/-- Settles O34, by what a command that fails has come to, and by the move that takes an Err. -/
theorem aFailedExchangeEndsTheCommand : Obligations.AFailedExchangeEndsTheCommand := by
  refine ⟨fun i s t h x e hx => ?_, fun s e rest hc hw ha => ?_⟩
  · have hf := failedAt_of_mem_settled h hx
    obtain ⟨hidle, hresp⟩ := hf.ended h
    obtain ⟨l, hl, hok⟩ := hf.trace
    exact ⟨⟨l, by rw [settled, hl, List.append_assoc, List.drop_left], hok⟩, hf.bus, hidle, hresp⟩
  · obtain ⟨x, hx, hexec⟩ := exec_of_err_consistent hc hw ha
    obtain ⟨ktr, kbus, kans⟩ := raiseOf_noTraffic (decode s.cmd) (.transportError e) (settle x (.err e) rest s)
    obtain ⟨kresp, -, -⟩ := raiseOf_kept (decode s.cmd) (.transportError e) (settle x (.err e) rest s)
    exact ⟨x, _, hx, hexec, ktr, kbus, kans, rfl, by rw [deliver_responses, kresp, settle_responses]⟩

/-! ### The bookkeeping registers -/

/-- What each command writes to the bookkeeping registers at its end (R153 to R156, R200). -/
theorem commitOf_bookkeeping {i : Instr} {s : State} (h : (commitOf i s).lastW ≠ s.lastW ∨ (commitOf i s).lastR ≠ s.lastR) :
    (∃ a d, i = .writeByte a d ∧ (commitOf i s).lastW = a.extractLsb' 0 9 ∧ (commitOf i s).lastR = s.lastR) ∨
    (∃ a n p, i = .writeArray a n p ∧ (commitOf i s).lastW = a.extractLsb' 0 9 ∧ (commitOf i s).lastR = s.lastR) ∨
    (∃ a, i = .readByte a ∧ (commitOf i s).lastR = a.extractLsb' 0 9 ∧ (commitOf i s).lastW = s.lastW) ∨
    (∃ a n, i = .readArray a n ∧ (commitOf i s).lastR = a.extractLsb' 0 9 ∧ (commitOf i s).lastW = s.lastW) ∨
    (∃ a2 a1 a0, i = .construct a2 a1 a0 ∧ (commitOf i s).lastW = 0#9 ∧ (commitOf i s).lastR = 0#9) := by
  cases i with
  | writeByte a d => exact .inl ⟨a, d, rfl, rfl, rfl⟩
  | writeArray a n p => exact .inr (.inl ⟨a, n, p, rfl, rfl, rfl⟩)
  | readByte a => exact .inr (.inr (.inl ⟨a, rfl, rfl, rfl⟩))
  | readArray a n => exact .inr (.inr (.inr (.inl ⟨a, n, rfl, rfl, rfl⟩)))
  | construct a2 a1 a0 => exact .inr (.inr (.inr (.inr ⟨a2, a1, a0, rfl, rfl, rfl⟩)))
  | _ => simp [commitOf] at h

/-- A move that changes a bookkeeping register is DONE's, of a command that succeeds (R158). -/
theorem Moved.bookkeeping {i : Instr} {s t : State} (h : Moved i s t) (hne : t.lastW ≠ s.lastW ∨ t.lastR ≠ s.lastR) :
    s.seq = .done ∧ ∃ r, s.pending = some r ∧ r.status = .ok ∧ t = deliver r (commitOf i s) := by
  have hq : s.seq = .done := by
    by_contra hq
    obtain ⟨-, hW, hR⟩ := h.kept hq
    exact hne.elim (· hW) (· hR)
  cases h with
  | delivers r _ hp =>
    split at hne
    next hok => exact ⟨hq, r, hp, hok, by rw [if_pos hok]⟩
    next => simp at hne
  | stays _ => simp at hne
  | _ => simp_all [Seq.waiting]

/-- Settles O35: only DONE of a success writes the registers, and a command that fails never gets there. -/
theorem bookkeepingIsWrittenOnlyOnSuccess : Obligations.BookkeepingIsWrittenOnlyOnSuccess := by
  refine ⟨fun i s t h hne => ?_, fun i s t h x e hx => ?_, fun s e rest hc hw ha => ?_⟩
  · obtain ⟨hq, r, hp, hok, rfl⟩ := (moved_of_moveOf h).bookkeeping hne
    exact ⟨hq, r, hp, hok, commitOf_bookkeeping hne⟩
  · have hf := failedAt_of_mem_settled h hx
    obtain ⟨-, hresp⟩ := hf.ended h
    exact ⟨hf.lastW, hf.lastR, hresp⟩
  · obtain ⟨x, -, hexec⟩ := exec_of_err_consistent hc hw ha
    obtain ⟨kb, kd⟩ := raiseOf_handle (decode s.cmd) (.transportError e) (settle x (.err e) rest s)
    obtain ⟨kresp, kW, kR⟩ := raiseOf_kept (decode s.cmd) (.transportError e) (settle x (.err e) rest s)
    exact ⟨_, hexec, kW, kR, kb, kd, by rw [deliver_responses, kresp, settle_responses]⟩

end Sys2Proof.Machine
end

section
/-! SUPPORT. A move and the command's path (R29, R150), and the wait for an answer that never comes (R152). -/

namespace Sys2Proof.Machine

/-! ### Moves along the path -/

/-- Two states of SEQ that follow one another on a command's path (R150). -/
def NextOnPath (i : Instr) (q q' : Seq) : Prop := ∃ before after, pathOf i = before ++ q :: q' :: after

theorem nextOnPath_done {i : Instr} (hd : dataAddress i = none) : NextOnPath i .check .done := by
  cases i <;> simp only [dataAddress, reduceCtorEq] at hd <;> exact ⟨[.idle], [], rfl⟩

theorem nextOnPath_presel {i : Instr} {a : Word} (hd : dataAddress i = some a) : NextOnPath i .check .presel := by
  cases i <;> simp only [dataAddress, reduceCtorEq] at hd <;> exact ⟨[.idle], _, rfl⟩

theorem GoesOn.nextOnPath {i : Instr} {q : Seq} {rx : Vector Byte 127} {u v : State} (h : GoesOn i q rx u v) :
    NextOnPath i q v.seq := by
  cases h with
  | writeBytePresel | readBytePresel => exact ⟨[.idle, .check], [.done], rfl⟩
  | readArrayPresel | writeArrayPresel => exact ⟨[.idle, .check], [.xfer, .done], rfl⟩
  | readArrayDummy => exact ⟨[.idle, .check, .presel], [.done], rfl⟩
  | writeByteXfer | readByteXfer => exact ⟨[.idle, .check, .presel], [], rfl⟩
  | readArrayXfer => exact ⟨[.idle, .check, .presel, .dummy], [], rfl⟩
  | writeArrayXfer => exact ⟨[.idle, .check, .presel, .mult], [], rfl⟩

/-- What follows an Ok answer: a waiting state has its exchange, and DONE the response of a success. -/
theorem GoesOn.arrives {i : Instr} {q : Seq} {rx : Vector Byte 127} {u v : State} (h : GoesOn i q rx u v) :
    (v.seq.waiting = true → v.bus.isSome = true) ∧ (v.seq = .done → ∃ r, v.pending = some r ∧ r.status = .ok) := by
  cases h <;> simp [sendWriteByte, Seq.waiting, okResponse]

/-- Settles O41: accepting is CHECK's start, and each move of the sequencer is one of the four kinds. -/
theorem sequencerMovesAlongThePath : Obligations.SequencerMovesAlongThePath := by
  refine ⟨fun i s hs => ?_, fun i s t h => ?_⟩
  · rw [exec_eq_runCommand, exec_eq_runCommand, runCommand, runCommand, accept_of_idle hs,
      accept_of_not_idle (s := { s with seq := .check }) (by simp)]
  have hm := moved_of_moveOf h
  have hresp : s.seq ≠ .done → t.responses = s.responses := fun hq => (hm.kept hq).responses
  cases hm with
  | stays hr => exact .inl ⟨rfl, hr.imp id fun ⟨hw, _, ha⟩ => ⟨hw, ha⟩⟩
  | answersAtOnce v hq hd _ =>
    exact .inr (.inl ⟨hq ▸ nextOnPath_done hd, rfl, by simp [hq, Seq.waiting], by simp [Seq.waiting],
      fun _ => ⟨_, rfl, rfl⟩⟩)
  | preselects a hq _ _ hd =>
    exact .inr (.inl ⟨hq ▸ nextOnPath_presel hd, rfl, by simp [hq, Seq.waiting], fun _ => rfl, by simp⟩)
  | transportAnswers x rx rest _ q hs hw _ ha hg =>
    subst hs
    obtain ⟨hbus, hok⟩ := hg.arrives
    refine .inr (.inl ⟨hg.nextOnPath, hresp (fun hd => by rw [hd] at hw; cases hw), ?_, hbus, hok⟩)
    rw [if_pos hw, hg.answers]
    exact ⟨rx, ha⟩
  | sends a n p hq hi _ =>
    subst hi
    have hpath : NextOnPath (.writeArray a n p) .mult .xfer := ⟨[.idle, .check, .presel], [.done], rfl⟩
    have hx : (sendWriteArray a n p s).seq = .xfer := by simp [sendWriteArray]
    exact .inr (.inl ⟨by rw [hq, hx]; exact hpath, hresp (by simp [hq]), by simp [hq, Seq.waiting, sendWriteArray],
      by simp [sendWriteArray], by simp [sendWriteArray]⟩)
  | delivers r hq hp =>
    obtain ⟨-, -, kans⟩ := commitOf_noTraffic i s
    refine .inr (.inr (.inl ⟨hq, rfl, ?_, r, hp, ?_⟩))
    · rw [deliver_answers, apply_ite State.answers, kans, ite_self]
    · rw [deliver_responses, apply_ite State.responses, commitOf_responses, ite_self]
  | refusedCheck hq _ =>
    exact .inr (.inr (.inr ⟨by simp [hq], rfl, rfl, _, rfl, errorResponse_status_ne _, by simp [hq, Seq.waiting]⟩))
  | failsCheck k hq _ _ _ =>
    obtain ⟨-, -, kans⟩ := raiseOf_noTraffic i k s
    exact .inr (.inr (.inr ⟨by simp [hq], raiseOf_seq i k s, hresp (by simp [hq]), _, raiseOf_pending i k s,
      errorResponse_status_ne k, by simpa [hq, Seq.waiting] using kans⟩))
  | failsMult a n p hq _ _ =>
    exact .inr (.inr (.inr ⟨by simp [hq], rfl, rfl, _, rfl, errorResponse_status_ne _, by simp [hq, Seq.waiting]⟩))
  | transportFails x e rest hw _ _ ha =>
    obtain ⟨-, -, kans⟩ := raiseOf_noTraffic i (.transportError e) (settle x (.err e) rest s)
    have hd : s.seq ≠ .done := fun hd => by rw [hd] at hw; cases hw
    refine .inr (.inr (.inr ⟨hd, raiseOf_seq _ _ _, hresp hd, _, raiseOf_pending _ _ _, errorResponse_status_ne _, ?_⟩))
    rw [if_pos hw, kans]
    exact ⟨e, ha, rfl⟩

/-! ### Waiting for ever -/

/-- A state that one step leaves as it is, any number of steps leaves as it is. -/
theorem run_eq_of_step_eq {M : Host.Core} {s : M.State} (h : M.step s = .next s) (k : Nat) : M.run k s = .next s := by
  induction k with
  | zero => rfl
  | succ k ih => simp only [Host.Core.run, h, ih]

/-- Settles O44: with no answer the step of a waiting state is its command's, which stays. -/
theorem withoutAnAnswerTheCoreWaits : Obligations.WithoutAnAnswerTheCoreWaits := by
  intro s hc hw ha hr k
  have hi : s.seq ≠ .idle := fun hi => by rw [hi] at hw; cases hw
  have hstep : step s = .next s := by
    rw [step_of_inFlight hi hr, exec_of_silent hc.onPath hw (hc.busWhileWaiting hw) ha]
  exact run_eq_of_step_eq (M := core) hstep k

end Sys2Proof.Machine
end

section
/-! SUPPORT. WRITE_ARRAY and READ_ARRAY on the bench (92_eei_decisions.md D28): the device holds the payload written, and the
read gives it back. -/

namespace Sys2Proof.Machine

/-! ### The device -/

/-- On the address's page its offset is at the address itself. -/
theorem RefDevice.base_add_offset {v : RefDevice} {a : Word} (ha : a.toNat < 512) (hp : v.page = decide (256 ≤ a.toNat)) :
    v.base + (inPageOffset a).toNat = a.toNat := by
  simp only [RefDevice.base, hp, decide_eq_true_eq, inPageOffset_toNat]
  split <;> omega

/-- A data write inside the page writes its bytes from the address on. -/
theorem RefDevice.after_dataWrite {v : RefDevice} {ba : BusAddr} {a : Word} {data : List Byte} (hba : v.addr = ba)
    (h0 : v.addr ≠ Config.pageFn) (h1 : v.addr ≠ Config.pageFn ||| 1#7) (ha : a.toNat < 512)
    (hp : v.page = decide (256 ≤ a.toNat)) (hfit : (inPageOffset a).toNat + data.length ≤ 256) :
    v.after (.write ba (inPageOffset a :: data)) = { v with mem := writeBytes v.mem a.toNat data } := by
  subst hba
  simp only [RefDevice.after, if_neg h0, if_neg h1, if_true, List.take_of_length_le (Nat.le_sub_of_add_le' hfit),
    RefDevice.base_add_offset ha hp]

/-- The bytes written are read back from the address on. -/
theorem readMem_writeBytes_range {m : Memory} (hm : m.wf) {a : Nat} {l : List Byte} (ha : a + l.length ≤ 512) :
    ((List.range l.length).map fun k => readMem (writeBytes m a l) (a + k)) = l := by
  apply List.ext_getElem
  · simp
  · intro k _ hk
    simp [readMem_writeBytes hm ha, hk]

/-! ### The bench between commands -/

/-- The bench between two commands, with a handle and nothing asserted or left over. -/
structure Bench.Ready (b : Bench) : Prop where
  seq : b.core.seq = .idle
  bound : b.core.bound = true
  bus : b.core.bus = none
  answers : b.core.answers = []
  resetIn : b.core.resetIn = none
  addr : b.dev.addr = b.core.devAddr

/-! ### WRITE_ARRAY -/

theorem decode_encode_writeArray (a n : Word) (p : Vector Byte 16) :
    decode (encode (.writeArray a n p)) = .writeArray a n p := by
  simp only [decode, encode, Laws.decodeHeader_writeArray]

section
variable {a n : Word} {p : Vector Byte 16}

/-- On the bench the answer to the pre-write takes WRITE_ARRAY with a legal length through MULT to its data write. -/
theorem Bench.Waits.step_mult {b : Bench} {ps : BusAddr} {rx : Vector Byte 127}
    (h : b.Waits (.writeArray a n p) .presel (preselExchange ps)) (hans : b.dev.answer (preselExchange ps) = .ok rx)
    (hn : n.toNat ∈ [2, 4, 8, 16]) :
    ∃ c, b.step = .next c ∧
      c.Waits (.writeArray a n p) .xfer (.write c.core.devAddr (inPageOffset a :: p.toList.take n.toNat)) ∧
      c.dev = b.dev.after (preselExchange ps) ∧ c.core.devAddr = b.core.devAddr ∧ c.core.bound = b.core.bound ∧
      c.core.host = b.core.host ∧ c.core.responses = b.core.responses := by
  have hm := (legalMultiple_iff n).2 hn
  have hx : (preselExchange ps).readLen = 0 := rfl
  have he : exec (.writeArray a n p) (b.core.withAnswers [b.dev.answer (preselExchange ps)]) =
      .next (sendWriteArray a n p (toMult (settle (preselExchange ps) (.ok []) [] b.core))) := by
    rw [GoesOn.exec_eq (s := b.core.withAnswers [b.dev.answer (preselExchange ps)]) h.seq h.bus (by rw [hans]; rfl)
      (.writeArrayPresel a n p rx _), exec_of_mult rfl, multWriteArray, if_pos hm, hx, received_zero]
    exact exec_of_silent (by simp [sendWriteArray, pathOf]) (by simp [sendWriteArray, Seq.waiting])
      (by simp [sendWriteArray]) (by simp [sendWriteArray])
  rw [sendWriteArray_eq a (toNat_le_of_legalMultiple hm)] at he
  refine ⟨_, h.step_eq (by simp) he, ⟨?_, rfl, by simp, by simp, ?_⟩, rfl, by simp, by simp, by simp, by simp⟩
  · simpa using h.latched
  · simpa using h.resetIn

/-- WRITE_ARRAY up to its data write: the pre-write has selected the address's page. -/
theorem Bench.run_writeArray_presel {b : Bench} {rest : List Descriptor} (hr : b.Ready)
    (hh : b.core.host = encode (.writeArray a n p) :: rest) (ha : a.toNat < 512) (hn : n.toNat ∈ [2, 4, 8, 16])
    (hw : windowPasses a n) :
    ∃ c, b.run 2 = .next c ∧
      c.Waits (.writeArray a n p) .xfer (.write c.core.devAddr (inPageOffset a :: p.toList.take n.toNat)) ∧
      c.dev = { b.dev with page := decide (256 ≤ a.toNat) } ∧ c.core.devAddr = b.core.devAddr ∧ c.core.bound = true ∧
      c.core.host = rest ∧ c.core.responses = b.core.responses := by
  have hle := toNat_le_of_legalMultiple ((legalMultiple_iff n).2 hn)
  obtain ⟨s1, w1⟩ := Bench.step_presel hr.seq hr.bound hr.bus hr.answers hr.resetIn hh (decode_encode_writeArray a n p)
    (a := a) ⟨hle, ha, hw⟩ rfl
  obtain ⟨c, s2, w2, hdev, haddr, hbound, hhost, hresp⟩ := w1.step_mult rfl hn
  exact ⟨c, (Bench.run_of_step s1 1).trans (Bench.run_of_step s2 0), w2, hdev.trans (RefDevice.after_presel b.dev ha),
    haddr, hbound.trans hr.bound, hhost, hresp⟩

/-- The data write, answered: the payload is in the device's memory, and the bench is between two commands. -/
theorem Bench.step_writeArray_data {b : Bench} {data : List Byte}
    (h : b.Waits (.writeArray a n p) .xfer (.write b.core.devAddr (inPageOffset a :: data))) (hbd : b.core.bound = true)
    (haddr : b.dev.addr = b.core.devAddr) (h0 : b.dev.addr ≠ Config.pageFn) (h1 : b.dev.addr ≠ Config.pageFn ||| 1#7)
    (ha : a.toNat < 512) (hp : b.dev.page = decide (256 ≤ a.toNat)) (hfit : (inPageOffset a).toNat + data.length ≤ 256) :
    ∃ c, b.step = .next c ∧ c.Ready ∧ c.core.host = b.core.host ∧
      c.core.responses = b.core.responses ++ [succeeded 0#32 []] ∧ c.dev.mem = writeBytes b.dev.mem a.toNat data := by
  have hs := h.step_ends rfl (.writeArrayXfer a n p _ _) rfl rfl rfl
  rw [RefDevice.after_dataWrite haddr h0 h1 ha hp hfit] at hs
  exact ⟨_, hs, ⟨rfl, hbd, rfl, rfl, h.resetIn, haddr⟩, rfl, rfl, rfl⟩

/-- WRITE_ARRAY on the bench, from IDLE to its response in three steps. -/
theorem Bench.run_writeArray {b : Bench} {rest : List Descriptor} (hr : b.Ready)
    (hh : b.core.host = encode (.writeArray a n p) :: rest) (h0 : b.dev.addr ≠ Config.pageFn)
    (h1 : b.dev.addr ≠ Config.pageFn ||| 1#7) (ha : a.toNat < 512) (hn : n.toNat ∈ [2, 4, 8, 16]) (hw : windowPasses a n) :
    ∃ c, b.run 3 = .next c ∧ c.Ready ∧ c.core.host = rest ∧
      c.core.responses = b.core.responses ++ [succeeded 0#32 []] ∧
      c.dev.mem = writeBytes b.dev.mem a.toNat (p.toList.take n.toNat) := by
  have hmax := windowMax_le (inPageOffset a)
  have hin := (windowPasses_iff a n).1 hw
  have hfit : (inPageOffset a).toNat + (p.toList.take n.toNat).length ≤ 256 := by rw [List.length_take]; omega
  obtain ⟨c, hrun, hwait, hdev, haddr, hbound, hhost, hresp⟩ := Bench.run_writeArray_presel hr hh ha hn hw
  obtain ⟨d, hd, hready, hdhost, hdresp, hdmem⟩ := Bench.step_writeArray_data hwait hbound
    (by rw [hdev, haddr]; exact hr.addr) (by rwa [hdev]) (by rwa [hdev]) ha (by rw [hdev]) hfit
  exact ⟨d, (Bench.run_add hrun 1).trans (Bench.run_of_step hd 0), hready, hdhost.trans hhost, by rw [hdresp, hresp],
    by rw [hdmem, hdev]⟩

end

/-! ### READ_ARRAY -/

/-- READ_ARRAY's two reads leave the device as it is. -/
theorem Bench.run_readArray_reads_dev {b : Bench} {a n : Word}
    (h : b.Waits (.readArray a n) .dummy (readExchange b.core.devAddr (inPageOffset a) 1))
    (hdev : b.dev.addr = b.core.devAddr) : ∃ c, b.run 2 = .next c ∧ c.dev = b.dev := by
  have hans : ∀ m, b.dev.answer (readExchange b.core.devAddr (inPageOffset a) m) =
      .ok (b.dev.readAnswer (inPageOffset a)) := RefDevice.answer_read hdev (inPageOffset a)
  obtain ⟨h1, w1⟩ := h.step_waits (hans 1) (.readArrayDummy a n _ _) rfl rfl
  have h2 := w1.step_ends (hans n.toNat) (.readArrayXfer a n _ _) rfl rfl rfl
  exact ⟨_, (Bench.run_of_step h1 1).trans (Bench.run_of_step h2 0), rfl⟩

/-- READ_ARRAY on the bench, from IDLE to its response in four steps: the device's bytes, and its memory as before (R56). -/
theorem Bench.run_readArray {b : Bench} {a n : Word} {rest : List Descriptor} (hr : b.Ready)
    (hh : b.core.host = encode (.readArray a n) :: rest) (ha : a.toNat < 512) (hw : windowPasses a n) :
    ∃ c, b.run 4 = .next c ∧ c.core.host = rest ∧ c.dev.mem = b.dev.mem ∧
      c.core.responses = b.core.responses ++
        [succeeded 0#32 ((List.range n.toNat).map fun k => readMem b.dev.mem (a.toNat + k))] := by
  have hn : n.toNat ≤ 127 := len_le_of_window ((windowPasses_iff a n).1 hw)
  obtain ⟨c, hrun, hwait, haddr, hhost, hresp, hdev⟩ :=
    Bench.run_readArray_presel hr.seq hr.bound hr.bus hr.answers hr.resetIn hh ha hw
  have hcaddr : c.dev.addr = c.core.devAddr := by rw [haddr, hdev, ← hr.addr]
  obtain ⟨d, hd, hdhost, hdresp, -⟩ := Bench.run_readArray_reads hn hwait hcaddr rfl
  obtain ⟨d', hd', hddev⟩ := Bench.run_readArray_reads_dev hwait hcaddr
  obtain rfl : d' = d := by rw [hd] at hd'; cases hd'; rfl
  refine ⟨d', (Bench.run_add hrun 2).trans hd, hdhost.trans hhost, by rw [hddev, hdev], ?_⟩
  rw [hdresp, hresp, received_readAnswer ha (by rw [hdev]) hw, hdev]

/-- Settles O53: the write leaves the payload in the device's memory, and the read receives it from there. -/
theorem aWrittenArrayReadsBack : Obligations.AWrittenArrayReadsBack := by
  intro b a n p rest hs hbd hb hans hr hwf haddr h0 h1 hh ha hn hw
  have hlen : (p.toList.take n.toNat).length = n.toNat := by
    simp [toNat_le_of_legalMultiple ((legalMultiple_iff n).2 hn)]
  have hfit : a.toNat + (p.toList.take n.toNat).length ≤ 512 := by
    rw [windowPasses, inPageOffset_toNat] at hw
    split at hw <;> omega
  obtain ⟨c, hc, hready, hchost, hcresp, hcmem⟩ := Bench.run_writeArray ⟨hs, hbd, hb, hans, hr, haddr⟩ hh h0 h1 ha hn hw
  obtain ⟨d, hd, hdhost, hdmem, hdresp⟩ := Bench.run_readArray hready hchost ha hw
  refine ⟨d, (Bench.run_add hc 4).trans hd, hdhost, ?_, fun x => ?_⟩
  · have hback := readMem_writeBytes_range hwf hfit
    rw [hlen, ← hcmem] at hback
    rw [hdresp, hcresp, hback, List.append_assoc]
    rfl
  · rw [hdmem, hcmem, readMem_writeBytes hwf hfit, hlen]
    split
    next hx => rw [List.getElem?_take_of_lt (by omega), List.getD_eq_getElem?_getD]
    next => rfl

end Sys2Proof.Machine
end

section
/-! SUPPORT. Answers that come later (R62, R152): a move takes at most the first answer, so more of them laid behind change
nothing but what is left. -/

namespace Sys2Proof.Machine

/-- The state with more answers laid behind those the transport has given. -/
def State.more (l : List Answer) (s : State) : State := { s with answers := s.answers ++ l }

theorem accept_more (l : List Answer) (s : State) : accept (s.more l) = (accept s).more l := by
  by_cases hs : s.seq = .idle
  · rw [accept_of_idle hs, accept_of_idle (s := s.more l) hs]; rfl
  · rw [accept_of_not_idle hs, accept_of_not_idle (s := s.more l) hs]

/-- Accepting is what a command does first, so one that has been accepted comes to the same. -/
theorem exec_accept (i : Instr) (s : State) : exec i (accept s) = exec i s := by
  have hi : (accept s).seq ≠ .idle := by rw [accept_seq]; split <;> simp_all
  rw [exec_eq_runCommand, exec_eq_runCommand, runCommand, runCommand, accept_of_not_idle hi]

/-! ### CHECK looks at no answer -/

theorem raise_more (l : List Answer) (k : ErrKind) (s : State) : raise k (s.more l) = (raise k s).more l := rfl

theorem raiseRead_more (l : List Answer) (k : ErrKind) (s : State) : raiseRead k (s.more l) = (raiseRead k s).more l := rfl

theorem needHandle_more (l : List Answer) (s : State) {r r' : Result} (hr : r' = mapNext (State.more l) r) :
    needHandle (s.more l) r' = mapNext (State.more l) (needHandle s r) := by
  subst hr
  have hb' : (s.more l).bound = s.bound := rfl
  cases hb : s.bound <;> simp only [needHandle, hb', hb] <;> rfl

theorem dataCheck_more {α : Type} {l : List Answer} {fail : ErrKind → State → State}
    (hf : ∀ k s, fail k (s.more l) = (fail k s).more l) (c : Except ErrKind α) (s : State) {go go' : α → Result}
    (hg : ∀ v, go' v = mapNext (State.more l) (go v)) :
    dataCheck fail c (s.more l) go' = mapNext (State.more l) (dataCheck fail c s go) := by
  cases c with
  | ok v => exact hg v
  | error k =>
    cases k
    case addressConversionFailure => rfl
    all_goals exact congrArg Host.Outcome.next (hf _ s)

/-- CHECK of every command does the same whatever answers lie ready. -/
theorem moveOf_check_more (i : Instr) (l : List Answer) {s : State} (hq : s.seq = .check) :
    moveOf i (s.more l) = mapNext (State.more l) (moveOf i s) := by
  have hq' : (s.more l).seq = .check := hq
  have hb' : (s.more l).bound = s.bound := rfl
  cases i with
  | construct a2 a1 a0 =>
    simp only [moveOf, moveConstruct, shortMove, hq, hq', checkConstruct, hb']
    split <;> rfl
  | release =>
    simp only [moveOf, moveRelease, shortMove, hq, hq', checkRelease, hb']
    split <;> rfl
  | prevWriteAddr =>
    simp only [moveOf, movePrevWriteAddr, shortMove, hq, hq', checkPrevWriteAddr, hb']
    split <;> rfl
  | prevReadAddr =>
    simp only [moveOf, movePrevReadAddr, shortMove, hq, hq', checkPrevReadAddr, hb']
    split <;> rfl
  | validateBounds a =>
    simp only [moveOf, moveValidateBounds, shortMove, hq, hq', checkValidateBounds]
    split <;> rfl
  | convert a =>
    simp only [moveOf, moveConvert, shortMove, hq, hq', checkConvert]
    split <;> rfl
  | validateWindow a n =>
    simp only [moveOf, moveValidateWindow, shortMove, hq, hq', checkValidateWindow]
    split <;> rfl
  | illegal h =>
    simp only [moveOf, moveIllegal, shortMove, hq, hq']
    rfl
  | writeByte a d =>
    simp only [moveOf, moveWriteByte, hq, hq', checkWriteByte]
    exact needHandle_more l s <| dataCheck_more (raise_more l) _ s fun _ => dataCheck_more (raise_more l) _ s fun _ => rfl
  | readByte a =>
    simp only [moveOf, moveReadByte, hq, hq', checkReadByte]
    exact needHandle_more l s <| dataCheck_more (raiseRead_more l) _ s fun _ =>
      dataCheck_more (raiseRead_more l) _ s fun _ => rfl
  | readArray a n =>
    simp only [moveOf, moveReadArray, hq, hq', checkReadArray]
    exact needHandle_more l s <| dataCheck_more (raiseRead_more l) _ s fun _ =>
      dataCheck_more (raiseRead_more l) _ s fun _ => dataCheck_more (raiseRead_more l) _ s fun _ => rfl
  | writeArray a n p =>
    simp only [moveOf, moveWriteArray, hq, hq', checkWriteArray]
    refine needHandle_more l s ?_
    split
    · rfl
    · exact dataCheck_more (raise_more l) _ s fun _ => dataCheck_more (raise_more l) _ s fun _ =>
        dataCheck_more (raise_more l) _ s fun _ => rfl

/-! ### The other moves -/

theorem raiseOf_more (i : Instr) (k : ErrKind) (l : List Answer) (s : State) :
    raiseOf i k (s.more l) = (raiseOf i k s).more l := by
  unfold raiseOf; split <;> rfl

theorem commitOf_more (i : Instr) (l : List Answer) (s : State) : commitOf i (s.more l) = (commitOf i s).more l := by
  cases i <;> rfl

theorem sendWriteArray_more (a n : Word) (p : Vector Byte 16) (l : List Answer) (s : State) :
    sendWriteArray a n p (s.more l) = (sendWriteArray a n p s).more l := by
  simp only [sendWriteArray, loadTx, txMessage, issue, State.more]

theorem sendWriteByte_more (a : Word) (d : Byte) (l : List Answer) (s : State) :
    sendWriteByte a d (s.more l) = (sendWriteByte a d s).more l := by
  simp only [sendWriteByte, loadTx, txMessage, issue, State.more]

theorem finishOk_loadRx_more (v : Word) (data : List Byte) (l : List Answer) (s : State) :
    finishOk v data (loadRx data (s.more l)) = (finishOk v data (loadRx data s)).more l := by
  simp only [finishOk, loadRx, State.more]

/-- What follows an Ok answer looks at no other answer. -/
theorem GoesOn.more {i : Instr} {q : Seq} {rx : Vector Byte 127} {u v : State} (h : GoesOn i q rx u v) (l : List Answer) :
    GoesOn i q rx (u.more l) (v.more l) := by
  cases h with
  | writeBytePresel a d => rw [← sendWriteByte_more]; exact .writeBytePresel a d rx _
  | readByteXfer a => rw [← finishOk_loadRx_more]; exact .readByteXfer a rx _
  | readArrayXfer a n => rw [← finishOk_loadRx_more]; exact .readArrayXfer a n rx _
  | writeByteXfer a d => exact .writeByteXfer a d rx _
  | readBytePresel a => exact .readBytePresel a rx _
  | readArrayPresel a n => exact .readArrayPresel a n rx _
  | readArrayDummy a n => exact .readArrayDummy a n rx _
  | writeArrayPresel a n p => exact .writeArrayPresel a n p rx _
  | writeArrayXfer a n p => exact .writeArrayXfer a n p rx _

/-- A move that does not wait for an answer is the same with more answers behind. -/
theorem moveOf_more {i : Instr} {s t : State} (h : moveOf i s = .next t) (hr : ¬ rests s) (l : List Answer) :
    moveOf i (s.more l) = .next (t.more l) := by
  cases moved_of_moveOf h with
  | stays hs => exact absurd hs hr
  | refusedCheck hq _ => rw [moveOf_check_more i l hq, h]; rfl
  | failsCheck k hq _ _ _ => rw [moveOf_check_more i l hq, h]; rfl
  | answersAtOnce v hq _ _ => rw [moveOf_check_more i l hq, h]; rfl
  | preselects a hq _ _ _ => rw [moveOf_check_more i l hq, h]; rfl
  | transportFails x e rest hw hq hb ha =>
    have ha' : (s.more l).answers = .err e :: (rest ++ l) := by simp [State.more, ha]
    rw [moveOf_of_err (s := s.more l) hq hw hb ha', ← raiseOf_more]
    rfl
  | transportAnswers x rx rest _ q hs hw hb ha hg =>
    have ha' : (s.more l).answers = .ok rx :: (rest ++ l) := by simp [State.more, ha]
    exact GoesOn.moveOf_eq (s := s.more l) hs hb ha' (hg.more l)
  | failsMult a n p hq hi hn =>
    subst hi
    have hq' : (s.more l).seq = .mult := hq
    simp only [moveOf, moveWriteArray, hq', multWriteArray, hn]
    rfl
  | sends a n p hq hi hn =>
    subst hi
    have hq' : (s.more l).seq = .mult := hq
    simp only [moveOf, moveWriteArray, hq', multWriteArray, hn, if_true, sendWriteArray_more]
  | delivers r hq hp =>
    rw [moveOf_of_done (s := s.more l) hq, doneMove_of_pending (s := s.more l) hp, commitOf_more]
    split <;> rfl

/-! ### A command -/

/-- At rest a move changes nothing. -/
theorem Moved.eq_of_rests {i : Instr} {s t : State} (hr : rests s) (h : Moved i s t) : t = s := by
  rcases hr with hi | ⟨hw, -, ha⟩
  · exact h.eq_of_idle hi
  · cases h with
    | stays _ => rfl
    | transportFails x e rest _ _ _ ha' => rw [ha] at ha'; cases ha'
    | transportAnswers x rx rest _ q _ _ _ ha' => rw [ha] at ha'; cases ha'
    | _ => simp_all [Seq.waiting]

/-- A command that comes to wait in t comes, with more answers behind, to what it comes to from t with them. -/
theorem exec_more {i : Instr} {s t : State} (h : exec i s = .next t) (hw : t.seq.waiting = true) (l : List Answer) :
    exec i (s.more l) = exec i (t.more l) := by
  have hstart : exec i (s.more l) = exec i ((accept s).more l) := by rw [← accept_more, exec_accept]
  rw [exec_eq_runCommand, runCommand] at h
  have hsame : t.seq = .idle ∨ exec i (s.more l) = exec i (t.more l) := by
    refine runMoves_keeps (P := fun u => u.seq = .idle ∨ exec i (s.more l) = exec i (u.more l)) (fun u v hu hv => ?_) 5
      (.inr hstart) h
    by_cases hr : rests u
    · rwa [(moved_of_moveOf hv).eq_of_rests hr]
    · refine (Classical.em (v.seq = .idle)).imp_right fun hi => ?_
      have hui : u.seq ≠ .idle := fun hui => hr (.inl hui)
      have hmove : moveOf i (accept (u.more l)) = .next (v.more l) := by
        rw [accept_of_not_idle (s := u.more l) hui, moveOf_more hv hr]
      exact (hu.resolve_left hui).trans (exec_eq_exec_of_move hmove hi)
  exact hsame.resolve_left fun hi => by rw [hi] at hw; cases hw

/-- Settles O56: the answers taken so far are the state's own, and a waiting state has none left. -/
theorem aWaitingCommandGoesOn : Obligations.AWaitingCommandGoesOn := by
  intro i s t l h hw
  have ht : t.more l = { t with answers := l } := by
    rcases exec_rests h with hi | ⟨-, -, ha⟩
    · rw [hi] at hw; cases hw
    · simp [State.more, ha]
  rw [← ht]
  exact (exec_more h hw l).symm

end Sys2Proof.Machine
end

section
/-! SUPPORT. The handle commands from IDLE and the binding gate (R200 to R205): what CHECK does with a refused command, what a
command that CHECK answers at once comes to, and that an accepted command never ends with IllegalCommand. -/

namespace Sys2Proof.Machine

/-! ### A refused command -/

/-- With a handle the gate accepts every data command (R205). -/
theorem refusedByGate_of_dataAddress {i : Instr} {a : Word} (hd : dataAddress i = some a) :
    refusedByGate true i = false := by
  cases i <;> simp only [dataAddress, reduceCtorEq] at hd <;> rfl

/-- CHECK of a command the gate refuses raises IllegalCommand (R205). -/
theorem moveOf_of_refusedByGate {i : Instr} {s : State} (hq : s.seq = .check) (hg : refusedByGate s.bound i = true) :
    moveOf i s = .next (raise .illegalCommand s) := by
  have hstep : InStep i s := ⟨by cases i <;> simp [hq, pathOf], by simp [hq, Seq.waiting], by simp [hq]⟩
  obtain ⟨t, ht⟩ := moveOf_answers hstep
  cases moved_of_moveOf ht with
  | refusedCheck => exact ht
  | failsCheck k _ _ _ hg' => rw [hg] at hg'; cases hg'
  | answersAtOnce v _ _ hg' => rw [hg] at hg'; cases hg'
  | preselects a _ hb _ hd => rw [hb, refusedByGate_of_dataAddress hd] at hg; cases hg
  | _ => simp_all [Seq.waiting]

/-- A command the gate refuses ends with IllegalCommand and changes nothing (R204, R205). -/
theorem exec_of_refusedByGate {i : Instr} {s : State} (hs : s.seq = .idle) (hg : refusedByGate s.bound i = true) :
    exec i s = .next (s.endWith (failed .illegalCommand none)) :=
  exec_eq_of_raises (k := .illegalCommand) hs (moveOf_of_refusedByGate (by simp [hs]) (by simpa using hg))

/-! ### A command answered at once -/

/-- From IDLE a command that CHECK answers at once delivers the answer, and changes only what it writes at its end (R150). -/
theorem exec_eq_of_answersAtOnce {i : Instr} {v : Word} {s : State} (hs : s.seq = .idle)
    (h : moveOf i (accept s) = .next (finishOk v [] (accept s))) :
    exec i s = .next ((commitOf i s).endWith (succeeded v [])) := by
  rw [exec_eq_of_done h rfl (finishOk_pending _ _ _) rfl, accept_of_idle hs]
  congr 1
  have hseq : (commitOf i s).seq = s.seq := by cases i <;> rfl
  apply State.ext
  case seq => exact (hseq.trans hs).symm
  all_goals cases i <;> rfl

/-- RELEASE with a handle ends it and answers OK (R201). -/
theorem exec_release_bound {s : State} (hs : s.seq = .idle) (hb : s.bound = true) :
    exec .release s = .next ((releaseHandle s).endWith (succeeded 0#32 [])) :=
  exec_eq_of_answersAtOnce hs (by simp [moveOf, moveRelease, shortMove, hs, checkRelease, hb])

/-- PREV_WRITE_ADDR with a handle answers LASTW and writes nothing (R202). -/
theorem exec_prevWriteAddr_bound {s : State} (hs : s.seq = .idle) (hb : s.bound = true) :
    exec .prevWriteAddr s = .next (s.endWith (succeeded (s.lastW.setWidth 32) [])) :=
  exec_eq_of_answersAtOnce hs (by simp [moveOf, movePrevWriteAddr, shortMove, hs, checkPrevWriteAddr, hb])

/-- PREV_READ_ADDR with a handle answers LASTR and writes nothing (R203). -/
theorem exec_prevReadAddr_bound {s : State} (hs : s.seq = .idle) (hb : s.bound = true) :
    exec .prevReadAddr s = .next (s.endWith (succeeded (s.lastR.setWidth 32) [])) :=
  exec_eq_of_answersAtOnce hs (by simp [moveOf, movePrevReadAddr, shortMove, hs, checkPrevReadAddr, hb])

/-! ### The handle commands and the illegal command -/

/-- The device address as R93 writes it, A0 unshifted. -/
theorem deviceAddress_eq (a2 a1 a0 : Bool) :
    deviceAddress a2 a1 a0 = Config.rwFn ||| ((BitVec.ofBool a2).setWidth 7 <<< 2) |||
      ((BitVec.ofBool a1).setWidth 7 <<< 1) ||| (BitVec.ofBool a0).setWidth 7 := by
  simp only [deviceAddress, cfgBit, BitVec.shiftLeft_zero]

/-- Settles O19: without a handle CONSTRUCT binds R93's address, and with one the gate refuses it. -/
theorem constructBindsTheHandle : Obligations.ConstructBindsTheHandle := by
  intro a2 a1 a0 s hs
  rw [← deviceAddress_eq]
  exact ⟨fun hb => exec_construct_unbound a2 a1 a0 hs hb, fun hb => exec_of_refusedByGate hs hb⟩

/-- Settles O21: with a handle RELEASE clears BOUND alone, and without one the gate refuses it. -/
theorem releaseEndsTheHandle : Obligations.ReleaseEndsTheHandle :=
  fun _ hs => ⟨fun hb => exec_release_bound hs hb, fun hb => exec_of_refusedByGate hs (by simp [refusedByGate, hb])⟩

/-- Settles O22: with a handle each accessor answers its register, and without one the gate refuses both. -/
theorem accessorsReturnTheBookkeeping : Obligations.AccessorsReturnTheBookkeeping := by
  intro s hs
  refine ⟨fun hb => ⟨exec_prevWriteAddr_bound hs hb, exec_prevReadAddr_bound hs hb⟩, fun hb => ⟨?_, ?_⟩⟩
  · exact exec_of_refusedByGate hs (by simp [refusedByGate, hb])
  · exact exec_of_refusedByGate hs (by simp [refusedByGate, hb])

/-- Settles O23: a header that is not legal is accepted for no opcode, and the illegal command's CHECK raises. -/
theorem illegalCommandsChangeNothing : Obligations.IllegalCommandsChangeNothing :=
  fun h _ _ _ _ hl hs =>
    ⟨(decode_eq_illegal_iff _).2 (Laws.decodeHeader_of_not_legal hl), exec_illegal h hs⟩

/-! ### An accepted command -/

theorem errorResponse_status_ne_illegalCommand {k : ErrKind} (hk : k ≠ .illegalCommand) :
    (errorResponse k).status ≠ .illegalCommand := by
  cases k <;> simp [errorResponse, ErrKind.status] at hk ⊢

/-- No move leads to CHECK: SEQ comes nearer to IDLE, or nothing happens and it was not in CHECK. -/
theorem Moved.target_ne_check {i : Instr} {s t : State} (h : Moved i s t) : t.seq ≠ .check := by
  intro hq
  rcases h.progress with ⟨rfl, hi | ⟨hw, -⟩⟩ | hr
  · rw [hq] at hi; cases hi
  · rw [hq] at hw; cases hw
  · rw [hq] at hr
    revert hr
    cases s.seq <;> decide

/-- A move of a legal command that reaches DONE has a response there, with IllegalCommand only where CHECK's gate refused. -/
theorem Moved.pending_status {i : Instr} {s t : State} (h : Moved i s t) (hl : ∀ w, i ≠ .illegal w)
    (hg : s.seq = .check → refusedByGate s.bound i = false) (hd : t.seq = .done) :
    ∃ r, t.pending = some r ∧ r.status ≠ .illegalCommand := by
  cases h with
  | stays h =>
    rw [hd] at h
    rcases h with h | ⟨hw, -⟩
    · cases h
    · cases hw
  | refusedCheck hq hr =>
    rcases hr with hr | ⟨w, rfl⟩
    · rw [hg hq] at hr; cases hr
    · exact absurd rfl (hl w)
  | failsCheck k hq hk he _ => exact ⟨_, raiseOf_pending i k s, errorResponse_status_ne_illegalCommand hk⟩
  | answersAtOnce v hq _ _ => exact ⟨_, finishOk_pending v [] s, by simp [okResponse]⟩
  | preselects a hq _ _ _ => cases hd
  | transportFails x e rest _ _ _ _ =>
    exact ⟨_, raiseOf_pending i _ _, errorResponse_status_ne_illegalCommand (by simp)⟩
  | transportAnswers x rx rest _ q _ _ _ _ hgo =>
    obtain ⟨r, hp, hok⟩ := hgo.arrives.2 hd
    exact ⟨r, hp, by simp [hok]⟩
  | failsMult a n p hq _ _ => exact ⟨_, raise_pending _ s, errorResponse_status_ne_illegalCommand (by simp)⟩
  | sends a n p hq _ _ => simp [sendWriteArray] at hd
  | delivers r hq hp => cases hd

/-- A command has come from s to t and IllegalCommand is not among its responses: the gate accepts it where it is still to be
checked, and no response in DONE or delivered since s has that status. -/
structure Accepted (i : Instr) (s t : State) : Prop where
  gate : t.seq = .check → refusedByGate t.bound i = false
  pending : t.seq = .done → ∀ r, t.pending = some r → r.status ≠ .illegalCommand
  responses : ∃ l, t.responses = s.responses ++ l ∧ ∀ r ∈ l, r.status ≠ .illegalCommand

theorem accept_accepted {i : Instr} {s : State} (hs : s.seq = .idle) (hg : refusedByGate s.bound i = false) :
    Accepted i s (accept s) where
  gate _ := by simpa using hg
  pending hd := by simp [hs] at hd
  responses := ⟨[], by simp⟩

/-- A move delivers at most what was pending in DONE. -/
theorem Moved.responses_eq {i : Instr} {s t : State} (h : Moved i s t) :
    t.responses = s.responses ∨ ∃ r, s.seq = .done ∧ s.pending = some r ∧ t.responses = s.responses ++ [r] := by
  by_cases hq : s.seq = .done
  · cases h with
    | delivers r _ hp =>
      exact .inr ⟨r, hq, hp, by rw [deliver_responses, apply_ite State.responses, commitOf_responses, ite_self]⟩
    | stays => exact .inl rfl
    | _ => simp_all [Seq.waiting]
  · exact .inl (h.kept hq).responses

theorem Moved.accepted {i : Instr} {s t u : State} (hl : ∀ w, i ≠ .illegal w) (ht : Accepted i s t) (h : Moved i t u) :
    Accepted i s u where
  gate hq := absurd hq h.target_ne_check
  pending hd r hr := by
    obtain ⟨r', hp, hne⟩ := h.pending_status hl ht.gate hd
    rw [hp] at hr
    cases hr
    exact hne
  responses := by
    obtain ⟨l, hl, hne⟩ := ht.responses
    rcases h.responses_eq with hr | ⟨r, hq, hp, hr⟩
    · exact ⟨l, hr.trans hl, hne⟩
    · refine ⟨l ++ [r], by rw [hr, hl, List.append_assoc], fun r' hr' => ?_⟩
      rcases List.mem_append.1 hr' with hr' | hr'
      · exact hne r' hr'
      · rw [List.mem_singleton.1 hr']
        exact ht.pending hq r hp

/-- From IDLE a legal command that the gate accepts stays accepted to where it comes to rest (R205). -/
theorem exec_accepted {i : Instr} {s t : State} (hs : s.seq = .idle) (hg : refusedByGate s.bound i = false)
    (hl : ∀ w, i ≠ .illegal w) (h : exec i s = .next t) : Accepted i s t := by
  rw [exec_eq_runCommand, runCommand] at h
  exact runMoves_keeps (fun u v hu hv => (moved_of_moveOf hv).accepted hl hu) 5 (accept_accepted hs hg) h

/-- Settles O24: CHECK of a refused command raises IllegalCommand, and no move of an accepted one answers with it. -/
theorem bindingGateFollowsItsTable : Obligations.BindingGateFollowsItsTable := by
  refine fun i s hs => ⟨exec_of_refusedByGate hs, fun hg hl t h r hr => ?_⟩
  obtain ⟨l, hresp, hne⟩ := (exec_accepted hs hg hl h).responses
  rw [delivered, hresp, List.drop_left] at hr
  exact hne r hr

end Sys2Proof.Machine
end

section
/-! SUPPORT. After an error (R235, R236): only DONE of a success writes a handle register, so a command whose responses are
all errors leaves the four of them. -/

namespace Sys2Proof.Machine

/-- In DONE a move delivers the response, and nothing else can happen (R29). -/
theorem Moved.of_done {i : Instr} {s t : State} (hq : s.seq = .done) (h : Moved i s t) :
    ∃ r, s.pending = some r ∧ t = deliver r (if r.status = .ok then commitOf i s else s) := by
  cases h with
  | delivers r _ hp => exact ⟨r, hp, rfl⟩
  | _ => simp_all [Seq.waiting]

/-- From s to t no handle register has changed (R23 to R26). -/
structure HandleKept (s t : State) : Prop where
  bound : t.bound = s.bound
  devAddr : t.devAddr = s.devAddr
  lastW : t.lastW = s.lastW
  lastR : t.lastR = s.lastR

theorem HandleKept.trans {s t u : State} (h : HandleKept s t) (k : HandleKept t u) : HandleKept s u :=
  ⟨k.bound.trans h.bound, k.devAddr.trans h.devAddr, k.lastW.trans h.lastW, k.lastR.trans h.lastR⟩

theorem GoesOn.handle {i : Instr} {q : Seq} {rx : Vector Byte 127} {u v : State} (h : GoesOn i q rx u v) :
    v.bound = u.bound ∧ v.devAddr = u.devAddr := by
  cases h <;> simp [sendWriteByte]

/-- A move writes a handle register only in DONE (R11). -/
theorem Moved.handleKept {i : Instr} {s t : State} (hq : s.seq ≠ .done) (h : Moved i s t) : HandleKept s t := by
  obtain ⟨-, hW, hR⟩ := h.kept hq
  suffices hBD : t.bound = s.bound ∧ t.devAddr = s.devAddr by
    obtain ⟨hB, hD⟩ := hBD
    exact ⟨hB, hD, hW, hR⟩
  cases h with
  | failsCheck k _ _ _ _ => exact raiseOf_handle i k s
  | transportFails x e rest _ _ _ _ => exact raiseOf_handle i _ (settle x _ rest s)
  | transportAnswers x rx rest _ q _ _ _ _ hg => exact hg.handle
  | sends a n p _ _ _ => simp [sendWriteArray]
  | delivers r hd _ => exact absurd hd hq
  | _ => exact ⟨rfl, rfl⟩

/-- A command has come from s to t, and the handle registers are as in s unless an OK response was delivered since. -/
def HandleKeptUnlessOk (s t : State) : Prop :=
  ∃ l, t.responses = s.responses ++ l ∧ ((∀ r ∈ l, r.status ≠ .ok) → HandleKept s t)

theorem Moved.handleKeptUnlessOk {i : Instr} {s t u : State} (ht : HandleKeptUnlessOk s t) (h : Moved i t u) :
    HandleKeptUnlessOk s u := by
  obtain ⟨l, hl, hkept⟩ := ht
  by_cases hq : t.seq = .done
  · obtain ⟨r, -, rfl⟩ := h.of_done hq
    refine ⟨l ++ [r], ?_, fun herr => ?_⟩
    · rw [deliver_responses, apply_ite State.responses, commitOf_responses, ite_self, hl, List.append_assoc]
    · rw [if_neg (herr r (by simp))]
      exact (hkept fun x hx => herr x (by simp [hx])).trans ⟨rfl, rfl, rfl, rfl⟩
  · exact ⟨l, (h.kept hq).responses.trans hl, fun herr => (hkept herr).trans (h.handleKept hq)⟩

theorem exec_handleKeptUnlessOk {i : Instr} {s t : State} (h : exec i s = .next t) : HandleKeptUnlessOk s t := by
  refine exec_keeps (fun u hu => ?_) (fun _ _ hu hm => hm.handleKeptUnlessOk hu)
    (⟨[], by simp, fun _ => ⟨rfl, rfl, rfl, rfl⟩⟩ : HandleKeptUnlessOk s s) h
  obtain ⟨l, hl, hkept⟩ := hu
  exact ⟨l, by simpa using hl, fun herr => (hkept herr).trans ⟨by simp, by simp, by simp, by simp⟩⟩

/-- Settles O36: a command that has delivered a response is idle, and its one response is an error. -/
theorem anErrorLeavesTheHandleRegisters : Obligations.AnErrorLeavesTheHandleRegisters := by
  intro i s t r hs h hr herr
  have hidle : t.seq = .idle := by
    rcases exec_answering_or_answered hs h with ha | ⟨hi, -⟩
    · simp [ha.responses] at hr
    · exact hi
  obtain ⟨l, hl, hkept⟩ := exec_handleKeptUnlessOk h
  obtain rfl : [r] = l := List.append_cancel_left (hr.symm.trans hl)
  obtain ⟨hB, hD, hW, hR⟩ := hkept (by simpa using herr)
  exact ⟨hidle, hB, hD, hW, hR⟩

end Sys2Proof.Machine
end

section
/-! SUPPORT. The transport's error values are opaque (60_exceptions.md section 1): every operation commutes with changing all
of them, because the core only copies one from an answer to the trace and to TERR (R159, R230, R231). -/

namespace Sys2Proof.Machine

open Function (Semiconj Commute)

/-! ### The values changed -/

/-- An error kind with the transport's error value changed by f. -/
def ErrKind.mapErr (f : TErr → TErr) : ErrKind → ErrKind
  | .transportError e => .transportError (f e)
  | .addressOutOfRange => .addressOutOfRange
  | .addressConversionFailure => .addressConversionFailure
  | .pageWriteWindowOverflow => .pageWriteWindowOverflow
  | .payloadTooLarge => .payloadTooLarge
  | .invalidPayloadMultiple => .invalidPayloadMultiple
  | .illegalCommand => .illegalCommand

theorem ErrKind.mapErr_eq_self (f : TErr → TErr) {k : ErrKind} (hk : ∀ e, k ≠ .transportError e) : k.mapErr f = k := by
  cases k with
  | transportError e => exact absurd rfl (hk e)
  | _ => rfl

/-- TERR takes the changed value and nothing else of the response depends on it (R89, R230). -/
theorem errorResponse_mapErr (f : TErr → TErr) (k : ErrKind) :
    errorResponse (k.mapErr f) = (errorResponse k).mapErr f := by
  cases k <;> rfl

@[simp] theorem mapErr_seq (f : TErr → TErr) (s : State) : (s.mapErr f).seq = s.seq := rfl
@[simp] theorem mapErr_bound (f : TErr → TErr) (s : State) : (s.mapErr f).bound = s.bound := rfl
@[simp] theorem mapErr_bus (f : TErr → TErr) (s : State) : (s.mapErr f).bus = s.bus := rfl
@[simp] theorem mapErr_pending (f : TErr → TErr) (s : State) :
    (s.mapErr f).pending = s.pending.map (Response.mapErr f) := rfl
@[simp] theorem mapErr_answers (f : TErr → TErr) (s : State) :
    (s.mapErr f).answers = s.answers.map (Answer.mapErr f) := rfl

/-! ### The shared operations -/

/-- A way to raise an error that only copies the transport's value. -/
def CopiesErr (f : TErr → TErr) (fail : ErrKind → State → State) : Prop :=
  ∀ k s, fail (k.mapErr f) (s.mapErr f) = (fail k s).mapErr f

/-- A move, or a part of one, that neither reads nor changes an error value. -/
abbrev MoveOpaque (f : TErr → TErr) (m : State → Result) : Prop := Semiconj m (State.mapErr f) (mapNext (State.mapErr f))

section
variable {f : TErr → TErr}

/-- An operation that commutes with the change, as what a move ends with. -/
theorem moveOpaque_next {g : State → State} (hg : Commute g (State.mapErr f)) : MoveOpaque f fun s => .next (g s) :=
  fun s => congrArg Host.Outcome.next (hg s)

theorem accept_mapErr : Commute accept (State.mapErr f) := by
  intro s
  by_cases hs : s.seq = .idle
  · rw [accept_of_idle hs, accept_of_idle (s := s.mapErr f) hs]; rfl
  · rw [accept_of_not_idle hs, accept_of_not_idle (s := s.mapErr f) hs]

theorem raise_copiesErr : CopiesErr f raise := by
  intro k s
  rw [raise, errorResponse_mapErr]
  rfl

theorem raiseRead_copiesErr : CopiesErr f raiseRead := fun k s => raise_copiesErr k (freeRx s)

theorem commitOf_mapErr (i : Instr) : Commute (commitOf i) (State.mapErr f) := by
  intro s; cases i <;> rfl

theorem finishOk_loadRx_mapErr (v : Word) (data : List Byte) :
    Commute (fun s => finishOk v data (loadRx data s)) (State.mapErr f) := by
  intro s
  simp only [finishOk, loadRx, State.mapErr]
  rfl

theorem sendWriteByte_mapErr (a : Word) (d : Byte) : Commute (sendWriteByte a d) (State.mapErr f) := by
  intro s
  simp only [sendWriteByte, loadTx, txMessage, issue, State.mapErr]

theorem sendWriteArray_mapErr (a n : Word) (p : Vector Byte 16) : Commute (sendWriteArray a n p) (State.mapErr f) := by
  intro s
  simp only [sendWriteArray, loadTx, txMessage, issue, State.mapErr]

/-- The trace records an answer's error value as the answer gave it (R231). -/
theorem settle_mapErr (x : Exchange) (e : Ending) (rest : List Answer) (s : State) :
    settle x (e.mapErr f) (rest.map (Answer.mapErr f)) (s.mapErr f) = (settle x e rest s).mapErr f := by
  simp [settle, State.mapErr, Record.mapErr]

theorem deliver_mapErr (r : Response) (s : State) : deliver (r.mapErr f) (s.mapErr f) = (deliver r s).mapErr f := by
  simp [deliver, State.mapErr]

theorem needHandle_mapErr (s : State) {r r' : Result} (hr : r' = mapNext (State.mapErr f) r) :
    needHandle (s.mapErr f) r' = mapNext (State.mapErr f) (needHandle s r) := by
  subst hr
  cases hb : s.bound <;> simp only [needHandle, mapErr_bound, hb] <;> rfl

/-- A check whose error is never the transport's raises the same error (R157). -/
theorem dataCheck_mapErr {α : Type} {fail : ErrKind → State → State} (hf : CopiesErr f fail) {c : Except ErrKind α}
    (hc : ∀ e, c ≠ .error (.transportError e)) (s : State) {go go' : α → Result}
    (hg : ∀ v, go' v = mapNext (State.mapErr f) (go v)) :
    dataCheck fail c (s.mapErr f) go' = mapNext (State.mapErr f) (dataCheck fail c s go) := by
  cases c with
  | ok v => exact hg v
  | error k =>
    have hk := hf k s
    rw [ErrKind.mapErr_eq_self f fun e he => hc e (congrArg _ he)] at hk
    cases k
    case addressConversionFailure => rfl
    all_goals exact congrArg Host.Outcome.next hk

/-- Waiting copies an error value to the trace and to TERR (R159). -/
theorem await_mapErr {fail : ErrKind → State → State} (hf : CopiesErr f fail) {go : Vector Byte 127 → State → Result}
    (hg : ∀ rx, MoveOpaque f (go rx)) (s : State) :
    await fail (s.mapErr f) go = mapNext (State.mapErr f) (await fail s go) := by
  cases hb : s.bus with
  | none => simp [await, hb, mapNext]
  | some x =>
    have hb' : (s.mapErr f).bus = some x := by simp [hb]
    match ha : s.answers with
    | [] => rw [await_silent hb ha, await_silent hb' (by simp [ha])]; rfl
    | .err e :: rest =>
      have ha' : (s.mapErr f).answers = .err (f e) :: rest.map (Answer.mapErr f) := by simp [ha, Answer.mapErr]
      rw [await_err hb ha, await_err hb' ha']
      exact congrArg Host.Outcome.next ((congrArg _ (settle_mapErr x (.err e) rest s)).trans (hf (.transportError e) _))
    | .ok rx :: rest =>
      have ha' : (s.mapErr f).answers = .ok rx :: rest.map (Answer.mapErr f) := by simp [ha, Answer.mapErr]
      rw [await_ok hb ha, await_ok hb' ha']
      exact (congrArg (go rx) (settle_mapErr x (.ok _) rest s)).trans (hg rx _)

theorem doneMove_mapErr {commit : State → State} (hc : Commute commit (State.mapErr f)) :
    MoveOpaque f (doneMove commit) := by
  intro s
  cases hp : s.pending with
  | none => simp [doneMove, hp, mapNext]
  | some r =>
    have hp' : (s.mapErr f).pending = some (r.mapErr f) := by simp [hp]
    have hst : (r.mapErr f).status = r.status := rfl
    rw [doneMove_of_pending hp, doneMove_of_pending hp', hst, hc s, ← apply_ite (State.mapErr f), deliver_mapErr]
    rfl

theorem shortMove_mapErr {check commit : State → State} (hk : Commute check (State.mapErr f))
    (hc : Commute commit (State.mapErr f)) : MoveOpaque f (shortMove check commit) := by
  intro s
  cases hq : s.seq <;> simp only [shortMove, mapErr_seq, hq]
  case check => exact moveOpaque_next hk s
  case done => exact doneMove_mapErr hc s
  all_goals rfl

/-! ### The translator's errors are its own (R121 to R128) -/

theorem validateBounds_ne_transportError (a : Word) (e : TErr) : validateBounds a ≠ .error (.transportError e) := by
  unfold validateBounds
  split <;> simp

theorem convert_ne_transportError (a : Word) (e : TErr) : convert a ≠ .error (.transportError e) := by
  by_cases ha : a.toNat < 512
  · simp [convert_ok ha]
  · simp [convert_error (Nat.le_of_not_lt ha)]

theorem validateWindow_ne_transportError (a n : Word) (e : TErr) :
    validateWindow a n ≠ .error (.transportError e) := by
  by_cases ha : a.toNat < 512
  · by_cases hw : (inPageOffset a).toNat + n.toNat ≤ windowMax (inPageOffset a)
    · simp [validateWindow_ok ha hw]
    · simp [validateWindow_overflow ha (Nat.lt_of_not_le hw)]
  · simp [validateWindow_error (Nat.le_of_not_lt ha)]

/-! ### The checks -/

theorem checkConstruct_mapErr : Commute checkConstruct (State.mapErr f) := by
  intro s
  cases hb : s.bound <;> simp only [checkConstruct, mapErr_bound, hb] <;> rfl

theorem checkRelease_mapErr : Commute checkRelease (State.mapErr f) := by
  intro s
  cases hb : s.bound <;> simp only [checkRelease, mapErr_bound, hb] <;> rfl

theorem checkPrevWriteAddr_mapErr : Commute checkPrevWriteAddr (State.mapErr f) := by
  intro s
  cases hb : s.bound <;> simp only [checkPrevWriteAddr, mapErr_bound, hb] <;> rfl

theorem checkPrevReadAddr_mapErr : Commute checkPrevReadAddr (State.mapErr f) := by
  intro s
  cases hb : s.bound <;> simp only [checkPrevReadAddr, mapErr_bound, hb] <;> rfl

theorem checkValidateBounds_mapErr (a : Word) : Commute (checkValidateBounds a) (State.mapErr f) := by
  intro s
  by_cases ha : a.toNat < 512
  · simp only [checkValidateBounds, validateBounds_ok ha]; rfl
  · simp only [checkValidateBounds, validateBounds_error (Nat.le_of_not_lt ha)]; rfl

theorem checkConvert_mapErr (a : Word) : Commute (checkConvert a) (State.mapErr f) := by
  intro s
  by_cases ha : a.toNat < 512
  · simp only [checkConvert, convert_ok ha]; rfl
  · simp only [checkConvert, convert_error (Nat.le_of_not_lt ha)]; rfl

theorem checkValidateWindow_mapErr (a n : Word) : Commute (checkValidateWindow a n) (State.mapErr f) := by
  intro s
  cases hc : validateWindow a n with
  | ok v => simp only [checkValidateWindow, hc]; rfl
  | error k =>
    simp only [checkValidateWindow, hc]
    cases k
    case transportError e => exact absurd hc (validateWindow_ne_transportError a n e)
    all_goals rfl

theorem checkWriteByte_mapErr (a : Word) : MoveOpaque f (checkWriteByte a) := fun s =>
  needHandle_mapErr s <| dataCheck_mapErr raise_copiesErr (validateBounds_ne_transportError a) s fun _ =>
    dataCheck_mapErr raise_copiesErr (convert_ne_transportError a) s fun _ => rfl

theorem checkReadByte_mapErr (a : Word) : MoveOpaque f (checkReadByte a) := fun s =>
  needHandle_mapErr s <| dataCheck_mapErr raiseRead_copiesErr (validateBounds_ne_transportError a) s fun _ =>
    dataCheck_mapErr raiseRead_copiesErr (convert_ne_transportError a) s fun _ => rfl

theorem checkReadArray_mapErr (a n : Word) : MoveOpaque f (checkReadArray a n) := fun s =>
  needHandle_mapErr s <| dataCheck_mapErr raiseRead_copiesErr (validateBounds_ne_transportError a) s fun _ =>
    dataCheck_mapErr raiseRead_copiesErr (validateWindow_ne_transportError a n) s fun _ =>
      dataCheck_mapErr raiseRead_copiesErr (convert_ne_transportError a) s fun _ => rfl

theorem checkWriteArray_mapErr (a n : Word) : MoveOpaque f (checkWriteArray a n) := by
  intro s
  apply needHandle_mapErr
  split
  · rfl
  · exact dataCheck_mapErr raise_copiesErr (validateBounds_ne_transportError a) s fun _ =>
      dataCheck_mapErr raise_copiesErr (validateWindow_ne_transportError a n) s fun _ =>
        dataCheck_mapErr raise_copiesErr (convert_ne_transportError a) s fun _ => rfl

theorem multWriteArray_mapErr (a n : Word) (p : Vector Byte 16) : Commute (multWriteArray a n p) (State.mapErr f) := by
  intro s
  unfold multWriteArray
  split
  · exact sendWriteArray_mapErr a n p s
  · exact raise_copiesErr .invalidPayloadMultiple s

/-! ### A move and a command -/

/-- No move of any command reads or changes an error value. -/
theorem moveOf_mapErr (i : Instr) : MoveOpaque f (moveOf i) := by
  have hc := commitOf_mapErr (f := f) i
  intro s
  cases i with
  | construct a2 a1 a0 => exact shortMove_mapErr checkConstruct_mapErr hc s
  | release => exact shortMove_mapErr checkRelease_mapErr hc s
  | prevWriteAddr => exact shortMove_mapErr checkPrevWriteAddr_mapErr hc s
  | prevReadAddr => exact shortMove_mapErr checkPrevReadAddr_mapErr hc s
  | validateBounds a => exact shortMove_mapErr (checkValidateBounds_mapErr a) hc s
  | convert a => exact shortMove_mapErr (checkConvert_mapErr a) hc s
  | validateWindow a n => exact shortMove_mapErr (checkValidateWindow_mapErr a n) hc s
  | illegal h => exact shortMove_mapErr (raise_copiesErr .illegalCommand) hc s
  | writeByte a d =>
    cases hq : s.seq <;> simp only [moveOf, moveWriteByte, mapErr_seq, hq]
    case check => exact checkWriteByte_mapErr a s
    case presel =>
      exact await_mapErr raise_copiesErr (fun _ => moveOpaque_next (sendWriteByte_mapErr a d)) s
    case xfer => exact await_mapErr raise_copiesErr (fun _ _ => rfl) s
    case done => exact doneMove_mapErr hc s
    all_goals rfl
  | readByte a =>
    cases hq : s.seq <;> simp only [moveOf, moveReadByte, mapErr_seq, hq]
    case check => exact checkReadByte_mapErr a s
    case presel => exact await_mapErr raiseRead_copiesErr (fun _ _ => rfl) s
    case xfer =>
      exact await_mapErr raiseRead_copiesErr (fun rx => moveOpaque_next (finishOk_loadRx_mapErr _ _)) s
    case done => exact doneMove_mapErr hc s
    all_goals rfl
  | readArray a n =>
    cases hq : s.seq <;> simp only [moveOf, moveReadArray, mapErr_seq, hq]
    case check => exact checkReadArray_mapErr a n s
    case presel => exact await_mapErr raiseRead_copiesErr (fun _ _ => rfl) s
    case dummy => exact await_mapErr raiseRead_copiesErr (fun _ _ => rfl) s
    case xfer =>
      exact await_mapErr raiseRead_copiesErr (fun rx => moveOpaque_next (finishOk_loadRx_mapErr _ _)) s
    case done => exact doneMove_mapErr hc s
    all_goals rfl
  | writeArray a n p =>
    cases hq : s.seq <;> simp only [moveOf, moveWriteArray, mapErr_seq, hq]
    case check => exact checkWriteArray_mapErr a n s
    case presel => exact await_mapErr raise_copiesErr (fun _ _ => rfl) s
    case mult => exact moveOpaque_next (multWriteArray_mapErr a n p) s
    case xfer => exact await_mapErr raise_copiesErr (fun _ _ => rfl) s
    case done => exact doneMove_mapErr hc s
    all_goals rfl

end

/-- Settles O37: accepting and every move commute with a change of the error values, so a run of moves does. -/
theorem transportErrorsAreOpaque : Obligations.TransportErrorsAreOpaque := by
  intro f i s
  rw [exec_eq_runCommand, exec_eq_runCommand, runCommand, runCommand, accept_mapErr s]
  exact runMoves_semiconj (moveOf_mapErr i) 5 (accept s)

end Sys2Proof.Machine
end

section
/-! SUPPORT. Reset (R260, R261): the state after it, and what the moves of a command cut short by one have left alone. -/

namespace Sys2Proof.Machine

/-! ### The state after reset -/

/-- Settles O46: without a handle the gate refuses every data command and CONSTRUCT binds one. -/
theorem resetLeavesNoHandle : Obligations.ResetLeavesNoHandle :=
  ⟨rfl, rfl, fun _ hd => exec_of_unbound hd rfl rfl, fun a2 a1 a0 => ⟨_, exec_construct_unbound a2 a1 a0 rfl rfl, rfl⟩⟩

/-- Settles O48: SEQ is idle, there is no handle, and nothing has been observed. -/
theorem resetIsConsistent : Obligations.ResetIsConsistent :=
  consistent_of_idle rfl rfl rfl (by simp [State.reset]) (by simp [State.reset]) (by simp [State.reset])

/-! ### The moves before a reset -/

/-- What holds of a state, holds after accepting the host's next descriptor there, and is kept by every move holds where a
reset strikes (R261). -/
theorem advance_keeps {P : State → Prop} {s u : State} {k : Nat} (hs : P s)
    (hlatch : ∀ d rest, P (accept (s.latch d rest))) (hmove : ∀ i v w, P v → Moved i v w → P w)
    (h : advance k s = .next u) : P u := by
  have hrun : ∀ i j v, P v → runMoves (moveOf i) j v = .next u → P u := fun i j _ hv hj =>
    runMoves_keeps (fun v w hv hw => hmove i v w hv (moved_of_moveOf hw)) j hv hj
  by_cases hq : s.seq = .idle
  · cases hh : s.host with
    | nil => simp only [advance, fetch, if_pos hq, hh] at h; cases h; exact hs
    | cons d rest =>
      simp only [advance, fetch, if_pos hq, hh] at h
      cases k with
      | zero => cases h; exact hs
      | succ k => exact hrun _ k _ (hlatch d rest) h
  · simp only [advance, fetch, if_neg hq] at h
    exact hrun _ k s hs h

/-- From s to t the trace has only grown, and while the command is in flight nothing was delivered and no bookkeeping register
written (R158, R235). -/
structure KeptInFlight (s t : State) : Prop where
  trace : s.trace <+: t.trace
  kept : t.seq ≠ .idle → Kept s t

/-- Only DONE delivers and writes LASTW or LASTR, and its move leaves the command no longer in flight. -/
theorem Moved.keptInFlight {i : Instr} {s t u : State} (ht : KeptInFlight s t) (h : Moved i t u) : KeptInFlight s u where
  trace := ht.trace.trans h.framed.trace
  kept hu := by
    have hidle : t.seq ≠ .idle := fun hq => hu (by rw [h.eq_of_idle hq, hq])
    have hdone : t.seq ≠ .done := fun hq => by
      obtain ⟨r, -, rfl⟩ := h.of_done hq
      exact hu rfl
    exact (ht.kept hidle).trans (h.kept hdone)

theorem advance_keptInFlight {s u : State} {k : Nat} (h : advance k s = .next u) : KeptInFlight s u :=
  advance_keeps ⟨List.prefix_rfl, fun _ => ⟨rfl, rfl, rfl⟩⟩
    (fun d rest => ⟨by simp [State.latch], fun _ => by constructor <;> simp [State.latch]⟩)
    (fun _ _ _ hv hm => hm.keptInFlight hv) h

/-! ### The reset -/

/-- A reset strikes where its moves have come to. -/
theorem step_of_reset {s u : State} {k : Nat} {fate : ResetFate} (hr : s.resetIn = some ⟨k, fate⟩)
    (hu : advance k s = .next u) : step s = .next (hardReset fate u) := by
  simp only [step, hr, strike, hu, andThen_next]

/-- Settles O47: the step is hardReset of where the moves have come to, and in flight those have kept what a command writes at
its end. -/
theorem resetEndsTheCommandInFlight : Obligations.ResetEndsTheCommandInFlight := by
  intro s u k fate hr hu
  refine ⟨hardReset fate u, step_of_reset hr hu, rfl, rfl, rfl, rfl, rfl, rfl, rfl, rfl, ?_, ?_, ?_⟩
  · intro hb
    rw [hardReset_trace, hb, cutRecords, List.append_nil]
  · intro x hb
    rw [hardReset_trace, hb, cutRecords]
  · intro hq
    obtain ⟨htrace, hkept⟩ := advance_keptInFlight hu
    obtain ⟨hresp, hW, hR⟩ := hkept hq
    exact ⟨hresp, hW, hR, htrace.trans (List.prefix_append _ _)⟩

end Sys2Proof.Machine
end

section
/-! SUPPORT. Decoder and encoder against each other (R81, R85, R98): an encoded command is decoded to itself, and a decoded
descriptor's header is encoded again bit for bit. -/

namespace Sys2Proof

/-! ### Decoding an encoded command -/

/-- The header an encoded well-formed command carries is read back as that command's opcode, or as illegal (R85, R88). -/
theorem decodeHeader_encode (i : Instr) (hw : i.wf = true) :
    (decodeHeader (encode i).h).toOption = Laws.opcodeOfInstr i :=
  match i with
  | .construct a2 a1 a0 => Laws.EncodedHeader.construct a2 a1 a0 hw
  | .release => Laws.EncodedHeader.release hw
  | .writeByte a d => Laws.EncodedHeader.writeByte a d hw
  | .readByte a => Laws.EncodedHeader.readByte a hw
  | .writeArray a n p => Laws.EncodedHeader.writeArray a n p hw
  | .readArray a n => Laws.EncodedHeader.readArray a n hw
  | .prevWriteAddr => Laws.EncodedHeader.prevWriteAddr hw
  | .prevReadAddr => Laws.EncodedHeader.prevReadAddr hw
  | .validateBounds a => Laws.EncodedHeader.validateBounds a hw
  | .convert a => Laws.EncodedHeader.convert a hw
  | .validateWindow a n => Laws.EncodedHeader.validateWindow a n hw
  | .illegal h => Laws.EncodedHeader.illegal h hw

/-- DATA of WRITE_BYTE's header is the data byte (R81). -/
theorem data_encode_writeByte (a : Word) (d : Byte) : Header.data (encode (.writeByte a d)).h = d := by
  have h3 : (0x3#32).extractLsb' 8 8 = 0#8 := rfl
  rw [encode, descriptor, Header.data, BitVec.extractLsb'_or, h3, BitVec.or_zero]
  ext k hk
  have hin : 8 + k < 32 ∧ k < 32 := by omega
  simp [hk, hin]

/-- A command's opcode makes of the encoded command the command again, with each operand (R85, R98). -/
theorem Opcode.command_encode {i : Instr} {o : Opcode} (h : Laws.opcodeOfInstr i = some o) : o.command (encode i) = i := by
  cases i <;> cases h
  case construct a2 a1 a0 => cases a2 <;> cases a1 <;> cases a0 <;> rfl
  case writeByte a d => exact congrArg (Instr.writeByte a) (data_encode_writeByte a d)
  all_goals rfl

theorem decode_encode {i : Instr} (hw : i.wf = true) : decode (encode i) = i := by
  have hd := decodeHeader_encode i hw
  cases hi : Laws.opcodeOfInstr i with
  | some o =>
    rw [hi, decodeHeader_toOption_eq_some_iff, ← decodeHeader_eq_ok_iff] at hd
    rw [decode_of_ok hd, Opcode.command_encode hi]
  | none =>
    have hill := (decode_eq_illegal_iff (encode i)).2 (hd.trans hi)
    cases i <;> cases hi
    exact hill

/-- Settles O1: an encoded command's header is accepted for its opcode, whose command keeps every operand. -/
theorem decodingAnEncodedCommandGivesItBack : Obligations.DecodingAnEncodedCommandGivesItBack :=
  fun _ hw => decode_encode hw

/-! ### Encoding a decoded descriptor -/

theorem Opcode.code_injective : Function.Injective Opcode.code := fun o o' h =>
  Option.some.inj (((opcodeOf_eq_some_iff o _).2 rfl).symm.trans ((opcodeOf_eq_some_iff o' _).2 h))

/-- R86's range of opcodes is what R85 maps. -/
theorem exists_code_eq {op : BitVec 4} (h1 : 1 ≤ op.toNat) (hB : op.toNat ≤ 0xB) : ∃ o : Opcode, op = o.code := by
  have hmap : ∀ op : BitVec 4, 1 ≤ op.toNat → op.toNat ≤ 0xB → (opcodeOf op).isSome = true := by decide
  obtain ⟨o, ho⟩ := Option.isSome_iff_exists.1 (hmap op h1 hB)
  exact ⟨o, (opcodeOf_eq_some_iff o op).1 ho⟩

/-- A header legal in R86 and R87's words is accepted by R88's pseudocode. -/
theorem exists_decodeHeader_eq_ok {h : Word} (hl : headerLegal h = true) : ∃ o, decodeHeader h = .ok o := by
  have hclear := unusedClear_of_legal hl
  simp only [headerLegal, Bool.and_eq_true, decide_eq_true_eq] at hl
  obtain ⟨-, h1, hB⟩ := hl
  obtain ⟨o, ho⟩ := exists_code_eq h1 hB
  exact ⟨o, (decodeHeader_eq_ok_iff h o).2 ⟨hclear, ho⟩⟩

theorem decode_wf (d : Descriptor) : (decode d).wf = true := by
  cases hd : decodeHeader d.h with
  | ok o => rw [decode_of_ok hd]; cases o <;> rfl
  | error e =>
    have hl : headerLegal d.h ≠ true := fun hl => by
      obtain ⟨o, ho⟩ := exists_decodeHeader_eq_ok hl
      rw [hd] at ho
      cases ho
    rw [decode_of_error hd]
    simpa [Instr.wf] using hl

/-- CFG is its three bits. -/
theorem cfg_eq_of_bits {h g : Word} (h6 : h.getLsbD 6 = g.getLsbD 6) (h5 : h.getLsbD 5 = g.getLsbD 5)
    (h4 : h.getLsbD 4 = g.getLsbD 4) : Header.cfg h = Header.cfg g := by
  apply BitVec.eq_of_getLsbD_eq
  intro k hk
  simp only [Header.cfg, BitVec.getLsbD_extractLsb']
  interval_cases k
  · rw [h4]
  · rw [h5]
  · rw [h6]

/-- An accepted header has no bit that its command does not keep: the operand fields the opcode uses are in the command, and
R87 wants the others clear. -/
theorem header_eq_of_command_eq {o : Opcode} {d e : Descriptor} (hd : decodeHeader d.h = .ok o)
    (he : decodeHeader e.h = .ok o) (h : o.command d = o.command e) : d.h = e.h := by
  obtain ⟨⟨dhigh, d7, ddata, dcfg⟩, dop⟩ := (decodeHeader_eq_ok_iff _ _).1 hd
  obtain ⟨⟨ehigh, e7, edata, ecfg⟩, eop⟩ := (decodeHeader_eq_ok_iff _ _).1 he
  rw [dop] at ddata dcfg
  rw [eop] at edata ecfg
  refine (header_eq_iff _ _).2 ⟨dhigh.trans ehigh.symm, d7.trans e7.symm, ?_, ?_, dop.trans eop.symm⟩
  · by_cases ho : o.code = 0x3#4
    · obtain rfl : o = .writeByte := Opcode.code_injective ho
      exact (Instr.writeByte.inj h).2
    · rw [ddata.resolve_left ho, edata.resolve_left ho]
  · by_cases ho : o.code = 0x1#4
    · obtain rfl : o = .construct := Opcode.code_injective ho
      obtain ⟨h6, h5, h4⟩ := Instr.construct.inj h
      exact cfg_eq_of_bits h6 h5 h4
    · rw [dcfg.resolve_left ho, ecfg.resolve_left ho]

theorem encode_decode_h (d : Descriptor) : (encode (decode d)).h = d.h := by
  have hback := decode_encode (decode_wf d)
  cases hd : decodeHeader d.h with
  | error e => rw [decode_of_error hd]; rfl
  | ok o =>
    have ho : decodeHeader (encode (decode d)).h = .ok o := by
      rw [decodeHeader_eq_ok_iff, ← decodeHeader_toOption_eq_some_iff, decodeHeader_encode _ (decode_wf d), decode_of_ok hd]
      cases o <;> rfl
    exact header_eq_of_command_eq ho hd ((decode_of_ok ho).symm.trans (hback.trans (decode_of_ok hd)))

/-- Settles O2: what is decoded is well formed, so it is decoded back (decode_encode), and the two accepted headers make one
command. -/
theorem encodingADecodedDescriptorKeepsItsHeader : Obligations.EncodingADecodedDescriptorKeepsItsHeader :=
  fun d => ⟨decode_wf d, encode_decode_h d, decode_encode (decode_wf d)⟩

end Sys2Proof
end

section
/-! SUPPORT. Assembly lines (R98) and the descriptors of the test vectors: each is an encoded command. -/

namespace Sys2Proof.Machine

/-! ### Assembly lines -/

/-- The header R98 gives CONSTRUCT is the encoder's. -/
theorem assemble_construct (a2 a1 a0 : Bool) : assemble (.construct a2 a1 a0) = encode (.construct a2 a1 a0) := by
  cases a2 <;> cases a1 <;> cases a0 <;> rfl

/-- The payload of a line is its bytes and then zeros (R98). -/
theorem toList_asmPayload {bytes : List Byte} (h : bytes.length ≤ 16) :
    (asmPayload bytes).toList = bytes ++ List.replicate (16 - bytes.length) 0#8 := by
  have hz : asmPayload bytes = overlay bytes zeroPayload := by
    apply Vector.ext
    intro k hk
    simp [asmPayload, overlay, zeroPayload]
  rw [hz, toList_overlay _ _ h, zeroPayload, Vector.toList_replicate, List.drop_replicate]

/-- Settles O7: every line but .cmd is its command encoded, and the payload is the bytes and then zeros. -/
theorem assembledLinesDecode : Obligations.AssembledLinesDecode := by
  refine ⟨fun a2 a1 a0 => ?_, decode_encode (i := .release) rfl, fun a d => decode_encode (i := .writeByte a d) rfl,
    fun a => decode_encode (i := .readByte a) rfl, fun a n bytes hw => ?_,
    fun a n => decode_encode (i := .readArray a n) rfl, decode_encode (i := .prevWriteAddr) rfl,
    decode_encode (i := .prevReadAddr) rfl,
    fun a => decode_encode (i := .validateBounds a) rfl, fun a => decode_encode (i := .convert a) rfl,
    fun a n => decode_encode (i := .validateWindow a n) rfl, fun h a n => rfl⟩
  · rw [assemble_construct]
    exact decode_encode rfl
  · have hlen : bytes.length = min n.toNat 16 := by simpa [asmWf] using hw
    refine ⟨asmPayload bytes, decode_encode (i := .writeArray a n (asmPayload bytes)) rfl, ?_⟩
    rw [toList_asmPayload (hlen ▸ Nat.min_le_right _ _), hlen]

/-! ### The test vectors -/

/-- Settles O8: each legal one is its command encoded, and the header of each illegal one is rejected. -/
theorem descriptorsOfTheTestVectorsDecode : Obligations.DescriptorsOfTheTestVectorsDecode :=
  ⟨decode_encode (i := .construct true false true) rfl, decode_encode (i := .construct false true false) rfl,
    decode_encode (i := .release) rfl, decode_encode (i := .writeByte 0x1FF#32 0xA5#8) rfl,
    decode_encode (i := .readByte 0x1FF#32) rfl,
    decode_encode (i := .writeArray 0x180#32 2#32 (overlay [0xDE#8, 0xAD#8] zeroPayload)) rfl,
    decode_encode (i := .readArray 0x060#32 16#32) rfl, decode_encode (i := .validateWindow 0x077#32 8#32) rfl,
    decode_of_error (e := .dataUnused) rfl, decode_of_error (e := .cfgUnused) rfl, decode_of_error (e := .reservedBits) rfl⟩

end Sys2Proof.Machine
end

section
/-! SUPPORT. The step after a word is placed (R80; log entries 10 and 12), and the device's memory over a step of the bench
(92_eei_decisions.md D28). -/

namespace Sys2Proof.Machine

/-- Settles O43: placing a word leaves the core idle with that descriptor first, and the step latches it. -/
theorem aPlacedWordRunsNext : Obligations.APlacedWordRunsNext := fun s nbits w =>
  ⟨rfl, step_of_idle (s := s.withFetchWord nbits w) (rest := s.host) rfl rfl rfl⟩

/-- A step of the bench gives the device at most one exchange to perform (D28). -/
theorem Bench.dev_of_step {b c : Bench} (h : b.step = .next c) : c.dev = b.dev ∨ ∃ x, c.dev = b.dev.after x := by
  have hc : c.dev = b.serve.dev := by
    unfold Bench.step at h
    split at h <;> cases h
    rfl
  rw [hc, Bench.serve]
  split
  next x _ _ => exact .inr ⟨x, rfl⟩
  next => exact .inl rfl
  next => exact .inl rfl

/-- Settles O51: the step gives the device at most one exchange, and no exchange breaks the form. -/
theorem deviceMemoryStaysCanonical : Obligations.DeviceMemoryStaysCanonical := by
  intro b c hm h
  rcases Bench.dev_of_step h with hc | ⟨x, hc⟩ <;> rw [hc]
  · exact hm
  · exact RefDevice.after_wf hm x

end Sys2Proof.Machine
end

section
/-! SUPPORT. WRITE_BYTE, READ_BYTE and the accessors on the bench (95_test_vectors.md W9, 92_eei_decisions.md D28): the device
holds the byte written, the read gives it back, and both bookkeeping registers hold its address. -/

namespace Sys2Proof.Machine

theorem bookkeepingAddress_setWidth {a : Word} (ha : a.toNat < 512) : (bookkeepingAddress a).setWidth 32 = a := by
  apply BitVec.eq_of_toNat_eq
  simp [bookkeepingAddress]
  omega

section
variable {b : Bench} {a : Word} {d : Byte} {rest : List Descriptor}

/-! ### WRITE_BYTE -/

/-- WRITE_BYTE up to its data write: the pre-write has selected the address's page. -/
theorem Bench.run_writeByte_presel (hr : b.Ready) (hh : b.core.host = encode (.writeByte a d) :: rest)
    (ha : a.toNat < 512) :
    ∃ c, b.run 2 = .next c ∧ c.Waits (.writeByte a d) .xfer (.write c.core.devAddr [inPageOffset a, d]) ∧
      c.core.devAddr = b.core.devAddr ∧ c.core.bound = true ∧ c.core.host = rest ∧ c.core.responses = b.core.responses ∧
      c.dev = { b.dev with page := decide (256 ≤ a.toNat) } := by
  obtain ⟨s1, w1⟩ := Bench.step_presel hr.seq hr.bound hr.bus hr.answers hr.resetIn hh (decode_encode rfl) (a := a) ha rfl
  obtain ⟨s2, w2⟩ := w1.step_waits rfl (.writeBytePresel a d _ _) rfl (by rw [sendWriteByte_eq]; rfl)
  exact ⟨_, (Bench.run_of_step s1 1).trans (Bench.run_of_step s2 0), w2, rfl, hr.bound, rfl, rfl,
    RefDevice.after_presel b.dev ha⟩

/-- The data write, answered: the byte is in the device's memory, and the bench is between two commands. -/
theorem Bench.step_writeByte_data (h : b.Waits (.writeByte a d) .xfer (.write b.core.devAddr [inPageOffset a, d]))
    (hbd : b.core.bound = true) (haddr : b.dev.addr = b.core.devAddr) (h0 : b.dev.addr ≠ Config.pageFn)
    (h1 : b.dev.addr ≠ Config.pageFn ||| 1#7) (ha : a.toNat < 512) (hp : b.dev.page = decide (256 ≤ a.toNat)) :
    ∃ c, b.step = .next c ∧ c.Ready ∧ c.core.host = b.core.host ∧ c.core.lastW = bookkeepingAddress a ∧
      c.core.responses = b.core.responses ++ [succeeded 0#32 []] ∧ c.dev.mem = writeMem b.dev.mem a.toNat d := by
  have hs := h.step_ends rfl (.writeByteXfer a d _ _) rfl rfl rfl
  rw [RefDevice.after_dataWrite (data := [d]) haddr h0 h1 ha hp (inPageOffset a).isLt] at hs
  exact ⟨_, hs, ⟨rfl, hbd, rfl, rfl, h.resetIn, haddr⟩, rfl, rfl, rfl, rfl⟩

/-- WRITE_BYTE on the bench, from IDLE to its response in three steps. -/
theorem Bench.run_writeByte (hr : b.Ready) (hh : b.core.host = encode (.writeByte a d) :: rest)
    (h0 : b.dev.addr ≠ Config.pageFn) (h1 : b.dev.addr ≠ Config.pageFn ||| 1#7) (ha : a.toNat < 512) :
    ∃ c, b.run 3 = .next c ∧ c.Ready ∧ c.core.host = rest ∧ c.core.lastW = bookkeepingAddress a ∧
      c.core.responses = b.core.responses ++ [succeeded 0#32 []] ∧ c.dev.mem = writeMem b.dev.mem a.toNat d := by
  obtain ⟨c, hrun, hwait, haddr, hbound, hhost, hresp, hdev⟩ := Bench.run_writeByte_presel hr hh ha
  obtain ⟨e, he, hready, hehost, heW, heresp, hemem⟩ := Bench.step_writeByte_data hwait hbound
    (by rw [hdev, haddr]; exact hr.addr) (by rwa [hdev]) (by rwa [hdev]) ha (by rw [hdev])
  exact ⟨e, (Bench.run_add hrun 1).trans (Bench.run_of_step he 0), hready, hehost.trans hhost, heW,
    by rw [heresp, hresp], by rw [hemem, hdev]⟩

/-! ### READ_BYTE -/

/-- READ_BYTE up to its data read: the pre-write has selected the address's page. -/
theorem Bench.run_readByte_presel (hr : b.Ready) (hh : b.core.host = encode (.readByte a) :: rest) (ha : a.toNat < 512) :
    ∃ c, b.run 2 = .next c ∧ c.Waits (.readByte a) .xfer (readExchange c.core.devAddr (inPageOffset a) 1) ∧
      c.core.devAddr = b.core.devAddr ∧ c.core.bound = true ∧ c.core.host = rest ∧ c.core.lastW = b.core.lastW ∧
      c.core.responses = b.core.responses ∧ c.dev = { b.dev with page := decide (256 ≤ a.toNat) } := by
  obtain ⟨s1, w1⟩ := Bench.step_presel hr.seq hr.bound hr.bus hr.answers hr.resetIn hh (decode_encode rfl) (a := a) ha rfl
  obtain ⟨s2, w2⟩ := w1.step_waits rfl (.readBytePresel a _ _) rfl rfl
  exact ⟨_, (Bench.run_of_step s1 1).trans (Bench.run_of_step s2 0), w2, rfl, hr.bound, rfl, rfl, rfl,
    RefDevice.after_presel b.dev ha⟩

/-- The data read, answered: the response carries the device's byte, and the bench is between two commands. -/
theorem Bench.step_readByte_data (h : b.Waits (.readByte a) .xfer (readExchange b.core.devAddr (inPageOffset a) 1))
    (hbd : b.core.bound = true) (haddr : b.dev.addr = b.core.devAddr) {v : Byte}
    (hv : (b.dev.readAnswer (inPageOffset a))[0] = v) :
    ∃ c, b.step = .next c ∧ c.Ready ∧ c.core.host = b.core.host ∧ c.core.lastW = b.core.lastW ∧
      c.core.lastR = bookkeepingAddress a ∧ c.dev = b.dev ∧
      c.core.responses = b.core.responses ++ [succeeded (v.setWidth 32) [v]] := by
  have hans := RefDevice.answer_read haddr (inPageOffset a) 1
  have hs := h.step_ends hans (.readByteXfer a (b.dev.readAnswer (inPageOffset a)) _) rfl (finishOk_pending _ _ _) rfl
  rw [hv, RefDevice.after_read] at hs
  refine ⟨_, hs, ⟨rfl, ?_, rfl, rfl, ?_, ?_⟩, ?_, ?_, ?_, rfl, ?_⟩
  · simpa [commitOf] using hbd
  · simpa [commitOf] using h.resetIn
  · simpa [commitOf] using haddr
  all_goals simp [commitOf, succeeded, okResponse]

/-- READ_BYTE on the bench, from IDLE to its response in three steps: the device's byte, and its memory as before. -/
theorem Bench.run_readByte (hr : b.Ready) (hh : b.core.host = encode (.readByte a) :: rest) (ha : a.toNat < 512) :
    ∃ c, b.run 3 = .next c ∧ c.Ready ∧ c.core.host = rest ∧ c.core.lastW = b.core.lastW ∧
      c.core.lastR = bookkeepingAddress a ∧ c.dev.mem = b.dev.mem ∧
      c.core.responses = b.core.responses ++
        [succeeded ((readMem b.dev.mem a.toNat).setWidth 32) [readMem b.dev.mem a.toNat]] := by
  obtain ⟨c, hrun, hwait, haddr, hbound, hhost, hW, hresp, hdev⟩ := Bench.run_readByte_presel hr hh ha
  have hv : (c.dev.readAnswer (inPageOffset a))[0] = readMem b.dev.mem a.toNat := by
    rw [RefDevice.readAnswer, Vector.getElem_ofFn, RefDevice.byteAt_eq ha (by rw [hdev])
      (Nat.le_of_lt_succ (inPageOffset a).isLt), hdev, Nat.add_zero]
  obtain ⟨e, he, hready, hehost, heW, heR, hedev, heresp⟩ := Bench.step_readByte_data hwait hbound
    (by rw [hdev, haddr]; exact hr.addr) hv
  exact ⟨e, (Bench.run_add hrun 1).trans (Bench.run_of_step he 0), hready, hehost.trans hhost, heW.trans hW, heR,
    by rw [hedev, hdev], by rw [heresp, hresp]⟩

/-! ### PREV_WRITE_ADDR and PREV_READ_ADDR -/

/-- A command that only answers takes one step on the bench and leaves it between two commands. -/
theorem Bench.Ready.step_answered {x : Descriptor} {r : Response} (hr : b.Ready) (hh : b.core.host = x :: rest)
    (he : exec (decode x) (b.core.latch x rest) = .next ((b.core.latch x rest).endWith r)) :
    ∃ c, b.step = .next c ∧ c.Ready ∧ c.core.host = rest ∧ c.core.lastR = b.core.lastR ∧ c.dev = b.dev ∧
      c.core.responses = b.core.responses ++ [r] :=
  ⟨_, Bench.step_of_idle hr.seq hr.bus hr.resetIn hh he,
    ⟨hr.seq, hr.bound, hr.bus, hr.answers, hr.resetIn, hr.addr⟩, rfl, rfl, rfl, rfl⟩

/-- The two accessors on the bench answer LASTW and LASTR, in a step each. -/
theorem Bench.run_accessors (hr : b.Ready) (hh : b.core.host = encode .prevWriteAddr :: encode .prevReadAddr :: rest) :
    ∃ c, b.run 2 = .next c ∧ c.core.host = rest ∧ c.dev = b.dev ∧ c.core.responses = b.core.responses ++
      [succeeded (b.core.lastW.setWidth 32) [], succeeded (b.core.lastR.setWidth 32) []] := by
  obtain ⟨c, hc, hcready, hchost, hcR, hcdev, hcresp⟩ := hr.step_answered hh
    (exec_prevWriteAddr_bound (s := b.core.latch _ _) hr.seq hr.bound)
  obtain ⟨e, he, -, hehost, -, hedev, heresp⟩ := hcready.step_answered hchost
    (exec_prevReadAddr_bound (s := c.core.latch _ _) hcready.seq hcready.bound)
  refine ⟨e, (Bench.run_of_step hc 1).trans (Bench.run_of_step he 0), hehost, hedev.trans hcdev, ?_⟩
  rw [heresp, hcresp, List.append_assoc, ← hcR]
  rfl

end

/-- Settles O52: the write leaves the byte in the device's memory, the read receives it from there, and the accessors answer the
registers the two have written. -/
theorem aWrittenByteReadsBack : Obligations.AWrittenByteReadsBack := by
  intro b a d rest hs hbd hb hans hr hwf haddr h0 h1 hh ha
  obtain ⟨c, hc, hcready, hchost, hcW, hcresp, hcmem⟩ := Bench.run_writeByte ⟨hs, hbd, hb, hans, hr, haddr⟩ hh h0 h1 ha
  obtain ⟨e, he, heready, hehost, heW, heR, hemem, heresp⟩ := Bench.run_readByte hcready hchost ha
  obtain ⟨f, hf, hfhost, hfdev, hfresp⟩ := Bench.run_accessors heready hehost
  have hmem : ∀ x, readMem c.dev.mem x = if x = a.toNat then d else readMem b.dev.mem x := fun x => by
    rw [hcmem, readMem_writeMem hwf.1]
  refine ⟨f, ?_, hfhost, ?_, fun x => ?_⟩
  · rw [Bench.run_add hc 5, Bench.run_add he 2, hf]
  · rw [hfresp, heresp, hcresp, hmem, if_pos rfl, heW, heR, hcW, bookkeepingAddress_setWidth ha]
    simp
  · rw [hfdev, hemem, hmem]

end Sys2Proof.Machine
end
